-- ==== Sys2Proof/Word.lean ====
section
/-! DEFINITION. The word types: bytes, and the quantities that the manual treats as words of a fixed width. -/

namespace Sys2Proof

/-- One byte of a message, of flash data or of DRAM. -/
abbrev Byte := BitVec 8

/-- A voice's tag, 0..2^32 - 1 (R39). -/
abbrev Tag := BitVec 32

/-- A period index: a 32-bit period number that wraps (00_scope.md, Period comparison). -/
abbrev PeriodIndex := BitVec 32

/-- A start order, a 32-bit counter value that wraps (R40). -/
abbrev StartOrder := BitVec 32

/-- An Ethernet station address (R148). -/
abbrev StationAddress := BitVec 48

/-- The 16-bit type field of an Ethernet frame (R148). -/
abbrev EtherType := BitVec 16

end Sys2Proof
end

