-- ==== Sys2Proof/Syntax.lean ====
section
/-! DEFINITION. The commands: one constructor for each row of spec/opcode_table.json, with what the outside
supplies at that step as its operands. A voice item or a management request is no operand: the part takes
it from the head of its own queue, where FRAME_RECEIVED put it (R41, R164; log 1). -/

namespace Sys2Proof

/-- One of the four module lanes, 0..3 (R86). -/
inductive LaneId where
  | lane0
  | lane1
  | lane2
  | lane3
deriving DecidableEq, Repr

/-- One thing for each lane. -/
structure PerLane (α : Type) where
  lane0 : α
  lane1 : α
  lane2 : α
  lane3 : α
deriving DecidableEq, Repr

/-- The status of a module's completion (R87). -/
inductive ReadStatus where
  | ok
  | eccFail
deriving DecidableEq, Repr

/-- A frame as the PHY delivers it (R149): whether its frame check holds, its 14-byte Ethernet header and its
payload. A frame that carries a VLAN tag has 0x8100 as its type. -/
structure Frame where
  checkOk     : Bool
  destination : StationAddress
  source      : StationAddress
  etherType   : EtherType
  payload     : List Byte
deriving DecidableEq, Repr

/-- The commands, in the order of spec/opcode_table.json. -/
inductive Instr where
  /-- POWER_ON: what the configuration memory answers (`none`: it does not) and which modules are present. -/
  | powerOn (memory : Option (List Byte)) (present : PerLane Bool)
  /-- FRAME_RECEIVED: a frame arrives from the PHY. -/
  | frameReceived (frame : Frame)
  /-- VOICE_START: the voice controller takes the START item at the head of its queue. -/
  | voiceStart
  /-- VOICE_RELEASE: it takes the RELEASE item at the head of its queue. -/
  | voiceRelease
  /-- VOICE_STOP: it takes the STOP item at the head of its queue. -/
  | voiceStop
  /-- STOP_ALL: it takes the STOP_ALL item at the head of its queue. -/
  | stopAll
  /-- TICK: the cadence tracker takes the tick that the link port handed on first, `elapsed` frames of the local clock
  later. -/
  | tick (elapsed : Nat)
  /-- LOCAL_PERIOD_TIMER_EXPIRY: the local period timer expires, at its expiry time. -/
  | localPeriodTimerExpiry
  /-- PASS_COMPLETE: the pass under way completes, `elapsed` frames of the local clock later. -/
  | passComplete (elapsed : Nat)
  /-- READ_COMPLETION: a module's completion arrives on a lane. -/
  | readCompletion (lane : LaneId) (number : Fin 32) (status : ReadStatus) (data : List Byte)
  /-- READ_TIMEOUT: a BUSY entry's read timer expires. -/
  | readTimeout (lane : LaneId) (number : Fin 32)
  /-- STALE_HOLD_EXPIRY: a STALE entry's hold timer expires. -/
  | staleHoldExpiry (lane : LaneId) (number : Fin 32)
  /-- ERROR_WINDOW_END: a lane's one-second error window ends. -/
  | errorWindowEnd (lane : LaneId)
  /-- PRESENCE_LOST: a module's presence line goes from present to absent. -/
  | presenceLost (lane : LaneId)
  /-- PRESENCE_RETURNED: a module's presence line goes from absent to present. -/
  | presenceReturned (lane : LaneId)
  /-- LINK_DOWN: the PHY reports the link down. -/
  | linkDown
  /-- LINK_UP: the PHY reports the link up. -/
  | linkUp
  /-- TRANSMIT_FRAME: the port is free to begin a frame. -/
  | transmitFrame
  /-- NOTICE_HELD_QUEUED: the held NOTICE receives a freed place. -/
  | noticeHeldQueued
  /-- END_LIST_FLUSH_ON_ROOM: a freed place is given to the end list. -/
  | endListFlushOnRoom
  /-- BAD_REQUEST_REPLY: the management unit takes a marked request. -/
  | badRequestReply
  | configure
  | loadSample
  | retireSample
  | querySample
  | loadArticulation
  | loadZones
  | loadCurve
  | loadMatrix
  | queryVoice
  | queryStatus
  | eventMask
  | eventClear
  | eventSet
  | resync
  | reset
deriving DecidableEq, Repr

end Sys2Proof
end

