-- ==== Sys2Proof/Decode.lean ====
section
/-! DEFINITION. The decoder over the rows of spec/opcode_table.json that give bits. No row does (every row's
"fields" list is empty and none has "fixed" bits), so no word spells a command (log 27). -/

namespace Sys2Proof

/-- The command that an `nbits`-bit word `w` spells by the table's bits: the table gives no row any. -/
def decodeTableWord (nbits w : Nat) : Option Instr :=
  match nbits, w with
  | _, _ => none

end Sys2Proof
end

