-- ==== Sys2Proof/Config.lean ====
section
/-! DEFINITION. The free values: what the manual leaves open. Each is a constant without a body, so that
nothing can be proved of its value; a claim holds whatever it is. -/

namespace Sys2Proof

/-- At a pass completion an EGRESS_OVERRUN NOTICE and the end-list flush may both want the last free place, and
"take them in whichever order they reach the queue" (R155): true, the event comes first. Log 13. -/
opaque Config.overrunBeforeFlush : Nat → Bool

/-- At a pass completion the refill checks may raise FETCH_LOST (R70), whose NOTICE may want the same place as the
flush (R145 gives no order, R155): true, the refill checks come first. Log 13. -/
opaque Config.refillBeforeFlush : Nat → Bool

/-- At a pass completion the error-limit action (R116) and a deferred management request (R105) are both taken
ahead of the waiting list; the manual does not say which is first: true, the error-limit action. Log 14. -/
opaque Config.limitBeforeRequest : Nat → Bool

/-- What the n-th free value has QUERY_VOICE report as the chunk number of an EMPTY slot, by the slot's index (R63, R171
give none). Log 15. -/
opaque Config.emptySlotChunk : Nat → Nat → BitVec 32

/-- What the n-th free value has QUERY_VOICE report as the deadline of an EMPTY slot, by the slot's index (R63, R171 give
none). Log 15. -/
opaque Config.emptySlotDeadline : Nat → Nat → BitVec 32

/-- Whether a tick whose index is 2^31 away from the expected index, and so neither before nor after it, is a
tick error (R111 names no class for it). Log 16. -/
opaque Config.antipodalTickIsError : BitVec 32 → Bool

/-- How many of a pass's voices the render engine has rendered when the step that opens the pass ends (R106, R122 give
the rendering no time). Log 5. -/
opaque Config.turnsAtOpening : Nat → Nat

/-- How many parts of a QUERY_STATUS the management unit has read when the step that begins the reading ends (R172 gives
the reading no time). Log 34. -/
opaque Config.statusReadAtOnce : Nat → Nat

/-- The frames of the local clock that pass while one voice of a pass is rendered. Log 3. -/
opaque Config.framesPerTurn : Nat → Nat

/-- A byte that a completion too short for its read does not carry, by the n-th free value and the byte's place in the
read (R91, Note: an answer to an earlier read may be kept for a newer one). Log 9. -/
opaque Config.missingByte : Nat → Nat → BitVec 8

end Sys2Proof
end

