-- ==== Sys2Proof/Machine/State.lean ====
section
/-! DEFINITION. The state of the part: every register, table, queue, counter, timer and mark that the manual
names, block by block, and the machine right after power-on. -/

namespace Sys2Proof.Machine

/-- A table of records by index, in one form: rising indices, and no entry for an index that holds its table's
default (a FREE record, an EMPTY slot, a FREE read number, a zone of all zeros). -/
abbrev Table (α : Type) := List (Nat × α)

/-- Bytes of DRAM by address, in one form: rising addresses, and no entry that holds 0 (log 8). -/
abbrev Memory := List Host.Cell

/-! ### Why a step can stop -/

/-- The faults of the model: there are none. The manual has no machine stop, and every command completes. -/
inductive Fault where
deriving DecidableEq, Repr

/-- The refusals of the model. -/
inductive Refusal where
  /-- Raised by an arm of `exec` that has no meaning yet; no arm is. Safe. -/
  | notModelled (mnemonic : String)
deriving DecidableEq, Repr

/-! ### Sample map (chapter 1) -/

/-- States of a non-EMPTY entry (R1); an EMPTY entry is one that the table does not list. -/
inductive EntryState where
  | priming
  | ready
  | faulted
  | retiring
deriving DecidableEq, Repr

/-- Why an entry is FAULTED (R1). -/
inductive FaultReason where
  | read
  | check
deriving DecidableEq, Repr

/-- The width of a channel sample (R1). -/
inductive SampleFormat where
  | s16
  | s24
  | s32
deriving DecidableEq, Repr

/-- The byte order of a channel sample (R1). -/
inductive ByteOrder where
  | le
  | be
deriving DecidableEq, Repr

/-- A loop: playback past `stop` continues from `start` (R1: LS and LE). -/
structure SampleLoop where
  start : Nat
  stop  : Nat
deriving DecidableEq, Repr

/-- A non-EMPTY sample entry (R1). -/
structure SampleEntry where
  state      : EntryState
  lane       : LaneId
  baseUnit   : Nat
  frames     : Nat
  channels   : Nat
  format     : SampleFormat
  order      : ByteOrder
  stride     : Nat
  headFrames : Nat
  pageBase   : Nat
  pageCount  : Nat
  loop       : Option SampleLoop
  check      : Option (BitVec 32)
  refCount   : Nat
  progress   : Nat
  fault      : Option FaultReason
deriving DecidableEq, Repr

/-- The state mark of a segment of the priming record (R8). -/
inductive SegmentState where
  | unread
  | outstanding
  | done
deriving DecidableEq, Repr

/-- A segment of the priming record (R8). -/
structure Segment where
  state     : SegmentState
  retryUsed : Bool
deriving DecidableEq, Repr

/-! ### Articulation tables (chapter 2) -/

/-- An articulation record (R21). -/
structure Articulation where
  firstZone       : Nat
  zoneCount       : Nat
  roundRobinCount : Nat
  cursor          : Nat
  releaseLength   : Nat
deriving DecidableEq, Repr

/-- R21, power-on column. -/
def Articulation.initial : Articulation :=
  { firstZone := 0, zoneCount := 0, roundRobinCount := 1, cursor := 0, releaseLength := 64 }

/-- A zone record (R23). -/
structure Zone where
  noteLow      : Nat
  noteHigh     : Nat
  velocityLow  : Nat
  velocityHigh : Nat
  slot         : Nat
  handle       : Nat
  curve        : Nat
  matrix       : Nat
  trim         : Nat
deriving DecidableEq, Repr

/-- R23: at power-on every field of every zone is 0. -/
def Zone.initial : Zone :=
  { noteLow := 0, noteHigh := 0, velocityLow := 0, velocityHigh := 0, slot := 0, handle := 0, curve := 0,
    matrix := 0, trim := 0 }

/-- A point of a velocity curve (R28). -/
structure CurvePoint where
  velocity : Nat
  gain     : Nat
deriving DecidableEq, Repr

/-- A velocity curve of six points (R28). -/
structure Curve where
  p0 : CurvePoint
  p1 : CurvePoint
  p2 : CurvePoint
  p3 : CurvePoint
  p4 : CurvePoint
  p5 : CurvePoint
deriving DecidableEq, Repr

/-- R28: the unity curve of power-on. -/
def Curve.initial : Curve :=
  { p0 := ⟨1, 32768⟩, p1 := ⟨26, 32768⟩, p2 := ⟨51, 32768⟩, p3 := ⟨76, 32768⟩, p4 := ⟨101, 32768⟩,
    p5 := ⟨127, 32768⟩ }

/-- The sixteen coefficients of a fold: eight for each row (R32). -/
structure Fold where
  left  : List Int
  right : List Int
deriving DecidableEq, Repr

/-- A fold matrix (R32). -/
structure FoldMatrix where
  active  : Fold
  staged  : Fold
  pending : Bool
deriving DecidableEq, Repr

/-- R32: stereo identity. -/
def Fold.identity : Fold :=
  { left := [16384, 0, 0, 0, 0, 0, 0, 0], right := [0, 16384, 0, 0, 0, 0, 0, 0] }

/-- R32: at power-on every matrix is stereo identity in both copies with the mark clear. -/
def FoldMatrix.initial : FoldMatrix :=
  { active := Fold.identity, staged := Fold.identity, pending := false }

/-- The library: the sample map's entries and the four articulation tables. -/
structure Library where
  samples       : Table SampleEntry
  articulations : Table Articulation
  zones         : Table Zone
  curves        : Table Curve
  matrices      : Table FoldMatrix
deriving DecidableEq, Repr

/-! ### Voices (chapters 3 and 7) -/

/-- States of a non-FREE voice record (R38); a FREE record is one that the table does not list. -/
inductive VoiceState where
  | pending
  | playing
  | releasing
  | stopping
deriving DecidableEq, Repr

/-- The kind of a ramp (R37); kind NONE is the absence of a ramp. -/
inductive RampKind where
  | release
  | stop
deriving DecidableEq, Repr

/-- A ramp: kind, start stream position, start level r0 and length (R132). -/
structure Ramp where
  kind   : RampKind
  start  : Int
  level  : Nat
  length : Nat
deriving DecidableEq, Repr

/-- The quiet state (R37). -/
inductive QuietState where
  | audible
  | quiet
deriving DecidableEq, Repr

/-- A non-FREE voice record (R37). Its ring is the eight slot records of its index. -/
structure Voice where
  state         : VoiceState
  tag           : Tag
  startOrder    : StartOrder
  handle        : Nat
  zone          : Nat
  matrix        : Nat
  gain          : Nat
  releaseLength : Nat
  startPeriod   : PeriodIndex
  offset        : Nat
  sourceOffset  : Nat
  loopInEffect  : Bool
  headChunks    : Nat
  emit          : Int
  releasePoint  : Option Int
  ramp          : Option Ramp
  quietCount    : Nat
  quiet         : QuietState
  dropouts      : Nat
  clips         : Nat
  late          : Bool
deriving DecidableEq, Repr

/-- The twelve end reasons (R59). -/
inductive EndReason where
  | endOfSample
  | released
  | stopped
  | stolen
  | quietTail
  | cancelled
  | cadence
  | noZone
  | notReady
  | sampleFaulted
  | laneOffline
  | voiceLimit
deriving DecidableEq, Repr

/-- An end record (R58). -/
structure EndRecord where
  tag      : Tag
  reason   : EndReason
  frames   : Nat
  dropouts : Nat
  clips    : Nat
deriving DecidableEq, Repr

/-! ### Ring slots and lane queues (chapter 4) -/

/-- States of a non-EMPTY slot (R64); an EMPTY slot is one that the table does not list. -/
inductive SlotState where
  | queued
  | inFlight
  | full
  | lost
  | draining
deriving DecidableEq, Repr

/-- The mark of a part (R63). -/
inductive PartMark where
  | waiting
  | outstanding
  | filled
  | failed
deriving DecidableEq, Repr

/-- A non-EMPTY slot record (R63): `marks` has one mark for each part, part 1 first. -/
structure Slot where
  state       : SlotState
  chunk       : Nat
  deadline    : PeriodIndex
  retryUsed   : Bool
  marks       : List PartMark
  outstanding : Nat
  successor   : Option Nat
deriving DecidableEq, Repr

/-- An entry of a lane's fetch queue (R69). `part` is 0 for part 1 and 1 for part 2. -/
structure QueueEntry where
  voice     : Nat
  slot      : Nat
  part      : Nat
  deadline  : PeriodIndex
  address   : Nat
  unitCount : Nat
deriving DecidableEq, Repr

/-! ### Lane controllers (chapter 5) -/

/-- The lane state (R95). -/
inductive LaneState where
  | ready
  | errored
  | offline
deriving DecidableEq, Repr

/-- Kind, owner and disposition of an outstanding read (R88). -/
inductive ReadOwner where
  | stream (voice slot part : Nat)
  | priming (handle segment : Nat) (discard : Bool)
deriving DecidableEq, Repr

/-- A non-FREE entry of the outstanding-read table (R88). Its timer holds the milliseconds it was started with (log 3). -/
inductive ReadEntry where
  | busy (owner : ReadOwner) (address unitCount timer : Nat)
  | stale (hold : Nat)
deriving DecidableEq, Repr

/-- One lane: the lane controller's own state (R86), the fetch scheduler's queue for it (R69), and the sample map's
priming list and priming record for it (R7, R8). The priming sample is the head of the list. -/
structure Lane where
  state              : LaneState
  present            : Bool
  reads              : Table ReadEntry
  errors             : Nat
  window             : Option Nat
  queue              : List QueueEntry
  primingList        : List Nat
  segments           : List Segment
  primingOutstanding : Nat
deriving DecidableEq, Repr

/-- R102, power-on: READY with a window running when the module is present, OFFLINE when it is absent. -/
def Lane.initial (present : Bool) : Lane :=
  { state := if present then .ready else .offline, present := present, reads := [], errors := 0,
    window := if present then some 1000 else none, queue := [], primingList := [], segments := [],
    primingOutstanding := 0 }

/-! ### Configuration (chapter 9) -/

/-- The lost action (R115). -/
inductive LostAction where
  | freeze
  | finish
deriving DecidableEq, Repr

/-- The fifteen session parameters (R167). -/
structure Configuration where
  sampleRate    : Nat
  period        : Nat
  lead          : Nat
  voiceLimit    : Nat
  lowWater      : Nat
  quietFloor    : Nat
  quietRun      : Nat
  readTimeout   : Nat
  laneThreshold : Nat
  tolerance     : Nat
  errorWindow   : Nat
  errorLimit    : Nat
  missedLimit   : Nat
  lostAction    : LostAction
  autoRelock    : Bool
deriving DecidableEq, Repr

/-- R167, power-on values. -/
def Configuration.initial : Configuration :=
  { sampleRate := 48000, period := 256, lead := 4, voiceLimit := 2048, lowWater := 3, quietFloor := 0, quietRun := 0,
    readTimeout := 20, laneThreshold := 64, tolerance := 32, errorWindow := 32, errorLimit := 8, missedLimit := 20,
    lostAction := .freeze, autoRelock := true }

/-! ### Cadence tracker (chapter 6) -/

/-- The cadence state (R103). -/
inductive CadenceState where
  | search
  | candidate
  | locked
  | holdover
  | lost
deriving DecidableEq, Repr

/-- The candidate tick: index and arrival time (R103). -/
structure Candidate where
  index   : PeriodIndex
  arrival : Nat
deriving DecidableEq, Repr

/-- An item of the waiting list, with its arrival time (R105). -/
inductive Waiting where
  | tick (index : PeriodIndex) (arrival : Nat)
  | expiry (arrival : Nat)
deriving DecidableEq, Repr

/-- The cadence tracker (R103). `limitDue` marks that the errors have reached M and the tracker is still to act on it
(R116); `heldConfig` holds the parameters it runs under while an accepted CONFIGURE waits for a pass (R168, log 29). -/
structure Cadence where
  state          : CadenceState
  misaligned     : Bool
  candidate      : Option Candidate
  lastTick       : Option PeriodIndex
  horizon        : Option PeriodIndex
  lastOpening    : Nat
  timer          : Option Nat
  missed         : Nat
  errorOpenings  : Nat
  errorCount     : Nat
  severeOpenings : Nat
  severeCount    : Nat
  severeRaised   : Bool
  waiting        : List Waiting
  clock          : Nat
  limitDue       : Bool
  heldConfig     : Option Configuration
deriving DecidableEq, Repr

/-- R103 and R121, power-on; the local clock and the last opening time start at 0 (log 7). -/
def Cadence.initial : Cadence :=
  { state := .search, misaligned := false, candidate := none, lastTick := none, horizon := none, lastOpening := 0,
    timer := none, missed := 0, errorOpenings := 0, errorCount := 0, severeOpenings := 0, severeCount := 0,
    severeRaised := false, waiting := [], clock := 0, limitDue := false, heldConfig := none }

/-! ### Render engine (chapter 7) -/

/-- The pass under way (R147): its period, its dropped blocks, the records that passed a ring chunk in it, for the refill
checks at its completion (R76, R128), and the lowest record index that has not had its turn yet (R122). -/
structure Pass where
  period  : PeriodIndex
  dropped : Nat
  passed  : List Nat
  next    : Nat
deriving DecidableEq, Repr

/-- The flags of a block (R142). -/
structure BlockFlags where
  first      : Bool
  last       : Bool
  late       : Bool
  released   : Bool
  dropout    : Bool
  clipped    : Bool
  quietEnter : Bool
  resume     : Bool
deriving DecidableEq, Repr

/-- A block (R142): P stereo frames, left then right. -/
structure Block where
  tag      : Tag
  flags    : BlockFlags
  valid    : Nat
  position : Int
  frames   : List (Int × Int)
deriving DecidableEq, Repr

/-! ### Link port (chapter 8) -/

/-- The configuration-memory status (R148). -/
inductive MemoryStatus where
  | read
  | defaults
deriving DecidableEq, Repr

/-- A voice request as a STREAM item carries it (R152; layouts in 8.10). -/
inductive VoiceItem where
  | start (tag : Tag) (articulation note velocity : Nat) (period : PeriodIndex) (offset sourceOffset : Nat)
  | release (tag : Tag) (period : PeriodIndex) (offset : Nat)
  | stop (tag : Tag)
  | stopAll
deriving DecidableEq, Repr

/-- A STREAM item (R152). -/
inductive StreamItem where
  | voice (item : VoiceItem)
  | tick (index : PeriodIndex)
deriving DecidableEq, Repr

/-- A tick of the pending-tick list and the voice items still ahead of it (R153). -/
structure PendingTick where
  index : PeriodIndex
  ahead : Nat
deriving DecidableEq, Repr

/-- The header mark of a management request (R151). -/
inductive HeaderMark where
  | unmarked
  | badKind
  | badLength
deriving DecidableEq, Repr

/-- A request of the management queue (R154). -/
structure Request where
  source : StationAddress
  number : Nat
  kind   : Nat
  mark   : HeaderMark
  body   : List Byte
deriving DecidableEq, Repr

/-- A frame of the egress data queue: the blocks of one pass (R156). -/
structure DataFrame where
  period : PeriodIndex
  blocks : List Block
  closed : Bool
deriving DecidableEq, Repr

/-- A frame on the wire (R159): a frame for the session partner has no destination when no partner is held. -/
structure WireFrame where
  destination : Option StationAddress
  source      : StationAddress
  etherType   : EtherType
  payload     : List Byte
deriving DecidableEq, Repr

/-- A tick that the link port has handed to the tracker, with the arrival time taken at that moment (R104, R153). -/
structure HandedTick where
  index   : PeriodIndex
  arrival : Nat
deriving DecidableEq, Repr

/-- The link port's ingress, identity and data queue. `handed` holds the ticks that have reached the tracker and that it
is still to take, in the order they were handed on (R105, R153; log 4). -/
structure Port where
  station      : StationAddress
  etherType    : EtherType
  memoryStatus : MemoryStatus
  partner      : Option StationAddress
  linkUp       : Bool
  voiceQueue   : List VoiceItem
  pendingTicks : List PendingTick
  handed       : List HandedTick
  mgmtQueue    : List Request
  dataQueue    : List DataFrame
  malformed    : Nat
  wire         : Option WireFrame
deriving DecidableEq, Repr

/-- R162, power-on, of a part whose configuration memory does not answer (R148). -/
def Port.initial : Port :=
  { station := 0x02CE42800000, etherType := 0x88B5, memoryStatus := .defaults, partner := none, linkUp := false,
    voiceQueue := [], pendingTicks := [], handed := [], mgmtQueue := [], dataQueue := [], malformed := 0,
    wire := none }

/-! ### Events, notices and the control queue (chapters 8 to 10) -/

/-- The twenty event kinds, in code order (chapter 10, 10.1). -/
inductive EventKind where
  | dropout
  | fetchLost
  | readError
  | laneState
  | lateStart
  | lateRelease
  | voiceStolen
  | startRefused
  | tagInUse
  | unknownTag
  | clip
  | cadenceState
  | cadenceShift
  | cadenceSevere
  | egressOverrun
  | ingressOverflow
  | endListOverflow
  | primeDone
  | linkState
  | foreignSource
deriving DecidableEq, Repr

/-- The cause of a read failure (8.10, Codes). -/
inductive ReadCause where
  | ecc
  | timeout
deriving DecidableEq, Repr

/-- The result in PRIME_DONE (8.10, Codes). -/
inductive PrimeResult where
  | ready
  | read
  | check
deriving DecidableEq, Repr

/-- The queue named by INGRESS_OVERFLOW (8.10, Codes). -/
inductive IngressQueue where
  | voiceRequests
  | management
  | pendingTicks
deriving DecidableEq, Repr

/-- The item type in UNKNOWN_TAG (R52, R55). -/
inductive TagItem where
  | release
  | stop
deriving DecidableEq, Repr

/-- The captures of the twenty event kinds (chapter 10, 10.1). -/
inductive Capture where
  | dropout (tag : Tag) (period : PeriodIndex) (silent : Nat)
  | fetchLost (tag : Tag) (lane : LaneId) (chunk : Nat)
  | readError (lane : LaneId) (address : Nat) (cause : ReadCause)
  | laneState (lane : LaneId) (old new : LaneState)
  | lateStart (tag : Tag) (requested actual : PeriodIndex)
  | lateRelease (tag : Tag) (requested horizon : PeriodIndex)
  | voiceStolen (victim new : Tag)
  | startRefused (tag : Tag) (reason : EndReason)
  | tagInUse (tag : Tag)
  | unknownTag (tag : Tag) (item : TagItem)
  | clip (tag : Tag) (period : PeriodIndex)
  | cadenceState (old : CadenceState) (oldMarker : Bool) (new : CadenceState) (newMarker : Bool)
  | cadenceShift (expected found : PeriodIndex)
  | cadenceSevere (expected : PeriodIndex)
  | egressOverrun (period : PeriodIndex) (blocks : Nat)
  | ingressOverflow (queue : IngressQueue)
  | endListOverflow (tag : Tag)
  | primeDone (handle : Nat) (result : PrimeResult)
  | linkState (up : Bool)
  | foreignSource (address : StationAddress)
deriving DecidableEq, Repr

/-- The record of one event kind (R177). `pending` is its mark in the masked-pending set. -/
structure EventRecord where
  raw     : Bool
  masked  : Bool
  pending : Bool
  count   : Nat
  capture : Option Capture
deriving DecidableEq, Repr

/-- R186, power-on: clear, masked, count 0, no capture. -/
def EventRecord.initial : EventRecord :=
  { raw := false, masked := true, pending := false, count := 0, capture := none }

/-- An entry of a NOTICE (R180). -/
structure NoticeEntry where
  kind    : EventKind
  count   : Nat
  capture : Option Capture
deriving DecidableEq, Repr

/-- The reply statuses (8.10, Codes). -/
inductive ReplyStatus where
  | ok
  | badKind
  | badLength
  | badField
  | badCurve
  | voicesActive
  | entryBusy
  | headRange
  | headOverlap
  | notFound
deriving DecidableEq, Repr

/-- What a request is answered with (R163). -/
structure Answer where
  status  : ReplyStatus
  ordinal : Nat
  detail  : Nat
  result  : List Byte
deriving DecidableEq, Repr

/-- A frame that fills a place of the control queue (R155). -/
inductive ControlFrame where
  | reply (destination : StationAddress) (number kind : Nat) (answer : Answer)
  | notice (entries : List NoticeEntry)
  | voiceEnd (records : List EndRecord)
deriving DecidableEq, Repr

/-- What QUERY_STATUS reads from one owner at one time (R172): the tracker's fields, the voices in use, the link port's
fields, a lane's, the configuration. -/
inductive StatusPart where
  | tracker
  | voices
  | port
  | lane (l : LaneId)
  | configuration
deriving DecidableEq, Repr

/-- A QUERY_STATUS whose fields are being read (R172): the result's bytes read so far, and the parts whose turn is still
to come (log 34). -/
structure StatusReading where
  told : List Byte
  left : List StatusPart
deriving DecidableEq, Repr

/-- The reporting side: the event unit's records and held NOTICE, the control queue's filled places in filling order,
the management unit (BUSY with a request holds one reserved place, R154, R164; `reading` is how far it is with a
QUERY_STATUS, R172), and the end list. -/
structure Report where
  events     : Table EventRecord
  noticeHeld : Bool
  control    : List ControlFrame
  busy       : Option Request
  reading    : Option StatusReading
  endList    : List EndRecord
deriving DecidableEq, Repr

/-- R162, R176 and R186, power-on. -/
def Report.initial : Report :=
  { events := [], noticeHeld := false, control := [], busy := none, reading := none, endList := [] }

/-! ### The whole part -/

/-- The state of the part, and the queue of the commands that are waiting. -/
structure State where
  port      : Port
  report    : Report
  library   : Library
  voices    : Table Voice
  nextOrder : StartOrder
  slots     : Table Slot
  lanes     : PerLane Lane
  cadence   : Cadence
  pass      : Option Pass
  config    : Configuration
  headStore : Memory
  ringStore : Memory
  freeCount : Nat
  pending   : List Instr
deriving DecidableEq, Repr

/-- The machine right after power-on (the power-on columns of R19, R36, R61, R85, R102, R121, R147, R162, R176 and
R186), for a part whose configuration memory does not answer and whose four modules are present (log 6). -/
def State.reset : State :=
  { port := Port.initial
    report := Report.initial
    library := { samples := [], articulations := [], zones := [], curves := [], matrices := [] }
    voices := []
    nextOrder := 0
    slots := []
    lanes := { lane0 := Lane.initial true, lane1 := Lane.initial true, lane2 := Lane.initial true,
               lane3 := Lane.initial true }
    cadence := Cadence.initial
    pass := none
    config := Configuration.initial
    headStore := []
    ringStore := []
    freeCount := 0
    pending := [] }

end Sys2Proof.Machine
end

