-- ==== Sys2Proof/Machine/Memory.lean ====
section
/-! DEFINITION. The two DRAM memories: the head store (R2) and the ring slots' data areas (R62). -/

namespace Sys2Proof.Machine

/-- What an address that the memory does not list reads as (R19: the contents are not cleared and the manual gives
none). DESIGN CHOICE, unsafe, log 8. -/
def Memory.unlisted : Byte := 0

/-- The byte at an address. -/
def Memory.read (m : Memory) (a : Nat) : Byte :=
  match m with
  | [] => Memory.unlisted
  | (i, b) :: rest => if i = a then b else Memory.read rest a

/-- The `n` bytes from an address on. -/
def Memory.readBlock (m : Memory) (a n : Nat) : List Byte :=
  (List.range n).map fun i => Memory.read m (a + i)

/-- The entries that list these bytes from an address on. -/
def Memory.cells (a : Nat) : List Byte → Memory
  | [] => []
  | b :: rest => if b = Memory.unlisted then Memory.cells (a + 1) rest else (a, b) :: Memory.cells (a + 1) rest

/-- Writes bytes from an address on. -/
def Memory.write (m : Memory) (a : Nat) (bytes : List Byte) : Memory :=
  (m.filter fun cell => decide (cell.1 < a)) ++ Memory.cells a bytes ++
    m.filter fun cell => decide (a + bytes.length ≤ cell.1)

/-- The one form of a memory: rising addresses, and no entry equal to what an unlisted address reads as. -/
abbrev Memory.wf (m : Memory) : Prop :=
  (m.Pairwise fun x y => x.1 < y.1) ∧ ∀ cell ∈ m, cell.2 ≠ Memory.unlisted

end Sys2Proof.Machine
end

