-- ==== Sys2Proof/Machine/Table.lean ====
section
/-! DEFINITION. Tables of records by index, and one thing for each lane. -/

namespace Sys2Proof.Machine

/-- The record listed at an index. -/
def Table.get? {α : Type} (t : Table α) (k : Nat) : Option α :=
  match t with
  | [] => none
  | (i, a) :: rest => if i = k then some a else Table.get? rest k

/-- The record at an index, `d` where none is listed. -/
def Table.getD {α : Type} (t : Table α) (k : Nat) (d : α) : α :=
  (Table.get? t k).getD d

/-- Lists a record at an index, in place of the one listed there. -/
def Table.insert {α : Type} (t : Table α) (k : Nat) (a : α) : Table α :=
  match t with
  | [] => [(k, a)]
  | (i, b) :: rest =>
    if k < i then (k, a) :: (i, b) :: rest
    else if k = i then (k, a) :: rest
    else (i, b) :: Table.insert rest k a

/-- Takes the record at an index off the list. -/
def Table.erase {α : Type} (t : Table α) (k : Nat) : Table α :=
  t.filter fun row => row.1 != k

/-- Writes a record; the default of the table is not listed. -/
def Table.put {α : Type} [DecidableEq α] (t : Table α) (k : Nat) (d a : α) : Table α :=
  if a = d then Table.erase t k else Table.insert t k a

/-- The indices listed, rising. -/
def Table.keys {α : Type} (t : Table α) : List Nat :=
  t.map fun row => row.1

/-- The lowest index from `n` on that a table with rising indices from `n` on does not list. -/
def Table.firstFree {α : Type} (t : Table α) (n : Nat) : Nat :=
  match t with
  | [] => n
  | (i, _) :: rest => if i = n then Table.firstFree rest (n + 1) else n

/-- The indices of a table rise. -/
abbrev Table.Rising {α : Type} (t : Table α) : Prop :=
  t.Pairwise fun a b => a.1 < b.1

/-- What a lane holds. -/
def PerLane.get {α : Type} (p : PerLane α) : LaneId → α
  | .lane0 => p.lane0
  | .lane1 => p.lane1
  | .lane2 => p.lane2
  | .lane3 => p.lane3

/-- What a lane holds, replaced. -/
def PerLane.set {α : Type} (p : PerLane α) (l : LaneId) (a : α) : PerLane α :=
  match l with
  | .lane0 => { p with lane0 := a }
  | .lane1 => { p with lane1 := a }
  | .lane2 => { p with lane2 := a }
  | .lane3 => { p with lane3 := a }

/-- The same change on every lane. -/
def PerLane.map {α β : Type} (p : PerLane α) (f : α → β) : PerLane β :=
  { lane0 := f p.lane0, lane1 := f p.lane1, lane2 := f p.lane2, lane3 := f p.lane3 }

/-- The lane's number, 0..3. -/
def laneNumber : LaneId → Nat
  | .lane0 => 0
  | .lane1 => 1
  | .lane2 => 2
  | .lane3 => 3

/-- The lane of a number 0..3. -/
def laneOfNumber : Nat → LaneId
  | 0 => .lane0
  | 1 => .lane1
  | 2 => .lane2
  | _ => .lane3

end Sys2Proof.Machine
end

