-- ==== Sys2Proof/Machine/Update.lean ====
section
/-! DEFINITION. The updates of the state, one for each field, and the readings of its tables by index. -/

namespace Sys2Proof.Machine

/-- The state with its `port` replaced. -/
def State.setPort (s : State) (x : Port) : State :=
  { s with port := x }

/-- The state with its `report` replaced. -/
def State.setReport (s : State) (x : Report) : State :=
  { s with report := x }

/-- The state with its `library` replaced. -/
def State.setLibrary (s : State) (x : Library) : State :=
  { s with library := x }

/-- The state with its `voices` replaced. -/
def State.setVoices (s : State) (x : Table Voice) : State :=
  { s with voices := x }

/-- The state with its `nextOrder` replaced. -/
def State.setNextOrder (s : State) (x : StartOrder) : State :=
  { s with nextOrder := x }

/-- The state with its `slots` replaced. -/
def State.setSlots (s : State) (x : Table Slot) : State :=
  { s with slots := x }

/-- The state with its `lanes` replaced. -/
def State.setLanes (s : State) (x : PerLane Lane) : State :=
  { s with lanes := x }

/-- The state with its `cadence` replaced. -/
def State.setCadence (s : State) (x : Cadence) : State :=
  { s with cadence := x }

/-- The state with its `pass` replaced. -/
def State.setPass (s : State) (x : Option Pass) : State :=
  { s with pass := x }

/-- The state with its `config` replaced. -/
def State.setConfig (s : State) (x : Configuration) : State :=
  { s with config := x }

/-- The state with its `headStore` replaced. -/
def State.setHeadStore (s : State) (x : Memory) : State :=
  { s with headStore := x }

/-- The state with its `ringStore` replaced. -/
def State.setRingStore (s : State) (x : Memory) : State :=
  { s with ringStore := x }

/-- The state with its `freeCount` replaced. -/
def State.setFreeCount (s : State) (x : Nat) : State :=
  { s with freeCount := x }

/-- The state with its `pending` replaced. -/
def State.setPending (s : State) (x : List Instr) : State :=
  { s with pending := x }

/-- A lane's state. -/
def State.lane (s : State) (l : LaneId) : Lane :=
  PerLane.get s.lanes l

/-- The state with one lane replaced. -/
def State.setLane (s : State) (l : LaneId) (x : Lane) : State :=
  s.setLanes (PerLane.set s.lanes l x)

/-- The non-EMPTY sample entry of a handle; `none` is EMPTY (R1). -/
def State.entry? (s : State) (h : Nat) : Option SampleEntry :=
  Table.get? s.library.samples h

/-- The state with the sample entries replaced. -/
def State.setSamples (s : State) (t : Table SampleEntry) : State :=
  s.setLibrary { s.library with samples := t }

/-- The state with one sample entry written. -/
def State.putEntry (s : State) (h : Nat) (e : SampleEntry) : State :=
  s.setSamples (Table.insert s.library.samples h e)

/-- The state with one sample entry EMPTY. -/
def State.clearEntry (s : State) (h : Nat) : State :=
  s.setSamples (Table.erase s.library.samples h)

/-- An articulation record (R21). -/
def State.articulation (s : State) (i : Nat) : Articulation :=
  Table.getD s.library.articulations i Articulation.initial

/-- The state with one articulation record written. -/
def State.putArticulation (s : State) (i : Nat) (a : Articulation) : State :=
  s.setLibrary { s.library with articulations := Table.put s.library.articulations i Articulation.initial a }

/-- A zone record (R23). -/
def State.zone (s : State) (i : Nat) : Zone :=
  Table.getD s.library.zones i Zone.initial

/-- A velocity curve (R28). -/
def State.curve (s : State) (i : Nat) : Curve :=
  Table.getD s.library.curves i Curve.initial

/-- A fold matrix (R32). -/
def State.matrix (s : State) (i : Nat) : FoldMatrix :=
  Table.getD s.library.matrices i FoldMatrix.initial

/-- The voice of a record; `none` is FREE (R37). -/
def State.voice? (s : State) (v : Nat) : Option Voice :=
  Table.get? s.voices v

/-- The state with one voice record written. -/
def State.putVoice (s : State) (v : Nat) (x : Voice) : State :=
  s.setVoices (Table.insert s.voices v x)

/-- The state with one voice record FREE. -/
def State.freeVoice (s : State) (v : Nat) : State :=
  s.setVoices (Table.erase s.voices v)

/-- The index of slot `j` of voice record `v` among the 16,384 slot records (R62). -/
def slotIndex (v j : Nat) : Nat :=
  8 * v + j

/-- A slot record; `none` is EMPTY (R64). -/
def State.slot? (s : State) (v j : Nat) : Option Slot :=
  Table.get? s.slots (slotIndex v j)

/-- The state with one slot record written. -/
def State.putSlot (s : State) (v j : Nat) (x : Slot) : State :=
  s.setSlots (Table.insert s.slots (slotIndex v j) x)

/-- The state with one slot EMPTY. -/
def State.clearSlot (s : State) (v j : Nat) : State :=
  s.setSlots (Table.erase s.slots (slotIndex v j))

/-- A pass is under way (R103, R106). -/
def State.passUnderWay (s : State) : Bool :=
  s.pass.isSome

end Sys2Proof.Machine
end

