-- ==== Sys2Proof/Machine/Articulations.lean ====
section
/-! DEFINITION. The articulation tables as the voice controller and the render engine use them (chapter 2): zone
matching with round robin, curve gain and voice gain, and the staged matrices. -/

namespace Sys2Proof.Machine

/-- Articulation records (R21). -/
def articulationCount : Nat := 4096

/-- R26: the velocity clamped to 1..127. -/
def clampVelocity (v : Nat) : Nat :=
  min (max v 1) 127

/-- R23: the zone contains the request. -/
def Zone.contains (z : Zone) (note velocity : Nat) : Bool :=
  decide (z.noteLow ≤ note) && decide (note ≤ z.noteHigh) && decide (z.velocityLow ≤ velocity) &&
    decide (velocity ≤ z.velocityHigh)

/-- R21: the zone indices of an articulation's run, from first zone upward. -/
def Articulation.run (a : Articulation) : List Nat :=
  (List.range a.zoneCount).map fun i => a.firstZone + i

/-- R26: the index of the zone chosen for an articulation, note and clamped velocity. A note above 127 is contained by
no zone that LOAD_ZONES accepts. -/
def State.chooseZone? (s : State) (articulation note velocity : Nat) : Option Nat :=
  if articulation < articulationCount then
    let a := s.articulation articulation
    let contains := fun i => (s.zone i).contains note velocity
    match a.run.find? fun i => contains i && (s.zone i).slot == a.cursor with
    | some i => some i
    | none => a.run.find? contains
  else none

/-- R27: the cursor after an accepted start. -/
def Articulation.advance (a : Articulation) : Articulation :=
  if 1 < a.roundRobinCount then { a with cursor := (a.cursor + 1) % a.roundRobinCount } else a

/-- R30: the gain on the segment from p to q, truncated toward zero. -/
def segmentGain (p q : CurvePoint) (velocity : Nat) : Int :=
  p.gain + Int.tdiv (((q.gain : Int) - p.gain) * ((velocity : Int) - p.velocity)) ((q.velocity : Int) - p.velocity)

/-- R30: the curve gain at a clamped velocity, on the lowest segment that holds it. -/
def Curve.gainAt (c : Curve) (velocity : Nat) : Nat :=
  (if velocity ≤ c.p1.velocity then segmentGain c.p0 c.p1 velocity
   else if velocity ≤ c.p2.velocity then segmentGain c.p1 c.p2 velocity
   else if velocity ≤ c.p3.velocity then segmentGain c.p2 c.p3 velocity
   else if velocity ≤ c.p4.velocity then segmentGain c.p3 c.p4 velocity
   else segmentGain c.p4 c.p5 velocity).toNat

/-- R31: the voice gain G. -/
def voiceGain (curveGain trim : Nat) : Nat :=
  min 65535 ((curveGain * trim + 16384) / 32768)

/-- R31: the voice gain of a zone at a clamped velocity. -/
def State.zoneGain (s : State) (z : Zone) (velocity : Nat) : Nat :=
  voiceGain ((s.curve z.curve).gainAt velocity) z.trim

/-- R34: a matrix whose mark is set has its staged copy applied. -/
def FoldMatrix.apply (m : FoldMatrix) : FoldMatrix :=
  if m.pending then { m with active := m.staged, pending := false } else m

/-- R34, R36: every pending staged matrix is applied. -/
def State.applyMatrices (s : State) : State :=
  s.setLibrary { s.library with
    matrices := (s.library.matrices.map fun row => (row.1, FoldMatrix.apply row.2)).filter
      fun row => row.2 != FoldMatrix.initial }

end Sys2Proof.Machine
end

