-- ==== Sys2Proof/Machine/Bytes.lean ====
section
/-! DEFINITION. Byte order, sign, the CRC-32 of R15, and the comparison of period indices (00_scope.md, Conventions). -/

namespace Sys2Proof.Machine

/-- The number that bytes spell, most significant first (Message byte order). -/
def ofBE (bytes : List Byte) : Nat :=
  bytes.foldl (fun acc b => acc * 256 + b.toNat) 0

/-- The number that bytes spell, least significant first. -/
def ofLE (bytes : List Byte) : Nat :=
  ofBE bytes.reverse

/-- The `n` bytes of a number reduced mod 256^n, most significant first (Message byte order). -/
def toBE : Nat → Nat → List Byte
  | 0, _ => []
  | n + 1, v => toBE n (v / 256) ++ [BitVec.ofNat 8 v]

/-- The `n` bytes of an integer in two's complement, most significant first (8.10). -/
def toBESigned (n : Nat) (v : Int) : List Byte :=
  toBE n (v % (256 ^ n : Nat)).toNat

/-- The integer that `x`, a number of `width` bits, means in two's complement. -/
def signed (width x : Nat) : Int :=
  if x < 2 ^ (width - 1) then (x : Int) else (x : Int) - (2 ^ width : Nat)

/-- The `len` bytes from byte `at` on. -/
def slice (bytes : List Byte) (start len : Nat) : List Byte :=
  (bytes.drop start).take len

/-- The big-endian field of `len` bytes at byte `start` of a message. -/
def field (bytes : List Byte) (start len : Nat) : Nat :=
  ofBE (slice bytes start len)

/-- 0 no or off, 1 yes or on (8.10, Codes). -/
def boolCode (b : Bool) : Nat :=
  if b then 1 else 0

/-- One of the eight steps of R15. -/
def crcStep (r : BitVec 32) : BitVec 32 :=
  if r.getLsbD 0 then (r >>> 1) ^^^ 0xEDB88320#32 else r >>> 1

/-- R15: one byte taken into the register. -/
def crcByte (r : BitVec 32) (b : Byte) : BitVec 32 :=
  crcStep (crcStep (crcStep (crcStep (crcStep (crcStep (crcStep (crcStep (r ^^^ b.setWidth 32))))))))

/-- R15: the CRC-32 of a list of bytes. -/
def crc32 (bytes : List Byte) : BitVec 32 :=
  bytes.foldl crcByte 0xFFFFFFFF#32 ^^^ 0xFFFFFFFF#32

/-- Period a is before period b when (b - a) mod 2^32 lies in 1..2^31 - 1 (Period comparison); start orders compare in
the same way (R40). -/
def isBefore (a b : BitVec 32) : Bool :=
  decide (0 < (b - a).toNat) && decide ((b - a).toNat < 2 ^ 31)

/-- The signed period difference of R52: the value in -2^31..2^31 - 1 congruent to (a - b) mod 2^32. -/
def periodDiff (a b : PeriodIndex) : Int :=
  (a - b).toInt

/-- `n` whole units of `unit` that hold `x`: ceil(x / unit). -/
def ceilDiv (x unit : Nat) : Nat :=
  (x + unit - 1) / unit

/-- A count of 16 bits that saturates at 65,535. -/
def saturate16 (n : Nat) : Nat :=
  min n 65535

end Sys2Proof.Machine
end

