-- ==== Sys2Proof/Machine/Flags.lean ====
section
/-! DEFINITION. The flags of the event unit (chapter 10) and what they lead to in the control queue; the end list
(R158) and the control queue's places (R155), which share those places with the NOTICEs. -/

namespace Sys2Proof.Machine

/-- The twenty kinds in code order. -/
def EventKind.all : List EventKind :=
  [.dropout, .fetchLost, .readError, .laneState, .lateStart, .lateRelease, .voiceStolen, .startRefused, .tagInUse,
   .unknownTag, .clip, .cadenceState, .cadenceShift, .cadenceSevere, .egressOverrun, .ingressOverflow,
   .endListOverflow, .primeDone, .linkState, .foreignSource]

/-- The event code, 1..20 (8.10, VOICE_END and NOTICE). -/
def EventKind.code : EventKind → Nat
  | .dropout => 1
  | .fetchLost => 2
  | .readError => 3
  | .laneState => 4
  | .lateStart => 5
  | .lateRelease => 6
  | .voiceStolen => 7
  | .startRefused => 8
  | .tagInUse => 9
  | .unknownTag => 10
  | .clip => 11
  | .cadenceState => 12
  | .cadenceShift => 13
  | .cadenceSevere => 14
  | .egressOverrun => 15
  | .ingressOverflow => 16
  | .endListOverflow => 17
  | .primeDone => 18
  | .linkState => 19
  | .foreignSource => 20

/-- The kind of a code; `none` outside 1..20 (R182). -/
def EventKind.ofCode (n : Nat) : Option EventKind :=
  EventKind.all.find? fun k => k.code == n

/-- The kind a capture belongs to (10.1). -/
def Capture.kind : Capture → EventKind
  | .dropout _ _ _ => .dropout
  | .fetchLost _ _ _ => .fetchLost
  | .readError _ _ _ => .readError
  | .laneState _ _ _ => .laneState
  | .lateStart _ _ _ => .lateStart
  | .lateRelease _ _ _ => .lateRelease
  | .voiceStolen _ _ => .voiceStolen
  | .startRefused _ _ => .startRefused
  | .tagInUse _ => .tagInUse
  | .unknownTag _ _ => .unknownTag
  | .clip _ _ => .clip
  | .cadenceState _ _ _ _ => .cadenceState
  | .cadenceShift _ _ => .cadenceShift
  | .cadenceSevere _ => .cadenceSevere
  | .egressOverrun _ _ => .egressOverrun
  | .ingressOverflow _ => .ingressOverflow
  | .endListOverflow _ => .endListOverflow
  | .primeDone _ _ => .primeDone
  | .linkState _ => .linkState
  | .foreignSource _ => .foreignSource

/-! ### One event record -/

/-- The record with its masked-pending mark as its raw flag and mask say (R177). -/
def EventRecord.marked (e : EventRecord) : EventRecord :=
  { e with pending := e.raw && !e.masked }

/-- R178: one occurrence; `c` is its capture, none for EVENT_SET (R185). -/
def EventRecord.occur (e : EventRecord) (c : Option Capture) : EventRecord :=
  EventRecord.marked
    { e with raw := true, count := saturate16 (e.count + 1), capture := if e.raw then e.capture else c }

/-- R178: the occurrence newly brings the event into the masked-pending set. -/
def EventRecord.entersOnOccur (e : EventRecord) : Bool :=
  !e.raw && !e.masked

/-- R183: the mask set to a value. -/
def EventRecord.setMask (e : EventRecord) (m : Bool) : EventRecord :=
  EventRecord.marked { e with masked := m }

/-- R183: setting the mask brings the event into the masked-pending set. -/
def EventRecord.entersOnMask (e : EventRecord) (m : Bool) : Bool :=
  e.raw && e.masked && !m

/-- R184, and R186 at a soft reset: raw flag, capture and count cleared, mask kept. -/
def EventRecord.clear (e : EventRecord) : EventRecord :=
  EventRecord.marked { e with raw := false, count := 0, capture := none }

/-! ### The event unit and the control queue -/

/-- The record of a kind (R177). -/
def Report.event (r : Report) (k : EventKind) : EventRecord :=
  Table.getD r.events k.code EventRecord.initial

/-- The record of a kind, replaced. -/
def Report.putEvent (r : Report) (k : EventKind) (e : EventRecord) : Report :=
  { r with events := Table.put r.events k.code EventRecord.initial e }

/-- The places of the control queue (R155). -/
def controlPlaces : Nat := 16

/-- The free places: neither filled nor reserved for the reply of the request in progress (R154, R155). -/
def Report.freePlaces (r : Report) : Nat :=
  controlPlaces - r.control.length - (if r.busy.isSome then 1 else 0)

/-- The entries of a NOTICE built now: the masked-pending set in code order (R180). -/
def Report.noticeEntries (r : Report) : List NoticeEntry :=
  EventKind.all.filterMap fun k =>
    if (r.event k).pending then some { kind := k, count := (r.event k).count, capture := (r.event k).capture }
    else none

/-- A frame fills a place (R155). -/
def Report.fill (r : Report) (f : ControlFrame) : Report :=
  { r with control := r.control ++ [f] }

/-- R180: a NOTICE is wanted: it is built into a free place, or held when none is free; one held takes in the next. A
free place is taken though 64 end records wait for it (log 20). -/
def Report.wantNotice (r : Report) : Report :=
  if r.noticeHeld then r
  else if 0 < r.freePlaces then r.fill (.notice r.noticeEntries)
  else { r with noticeHeld := true }

/-- R178 to R180: an occurrence of a kind, with its capture. -/
def Report.raiseKind (r : Report) (k : EventKind) (c : Option Capture) : Report :=
  let raised := r.putEvent k ((r.event k).occur c)
  if (r.event k).entersOnOccur then raised.wantNotice else raised

/-- "X is raised" (00_scope.md, Raising an event). -/
def Report.raise (r : Report) (c : Capture) : Report :=
  r.raiseKind c.kind (some c)

/-! ### The end list -/

/-- The most end records the list holds (R158). -/
def endListLimit : Nat := 256

/-- Records of a full VOICE_END frame (R158). -/
def endFrameRecords : Nat := 64

/-- Free places that VOICE_END may fill: a held NOTICE has the first claim (R155; log 20). -/
def Report.endPlaces (r : Report) : Nat :=
  r.freePlaces - (if r.noticeHeld then 1 else 0)

/-- R158: up to 64 records from the head of the list go into one VOICE_END frame. -/
def Report.flushOne (r : Report) : Report :=
  { r with control := r.control ++ [.voiceEnd (r.endList.take endFrameRecords)],
           endList := r.endList.drop endFrameRecords }

/-- R158, at a pass completion: one frame for each free place until the list is empty. At most `n` frames. -/
def Report.flushAll : Nat → Report → Report
  | 0, r => r
  | n + 1, r => if r.endList.isEmpty || r.endPlaces == 0 then r else Report.flushAll n r.flushOne

/-- R158: a record is appended, or dropped with END_LIST_OVERFLOW; an append that brings the list to 64 flushes one
frame when a place is free. -/
def Report.appendEnd (r : Report) (e : EndRecord) : Report :=
  if endListLimit ≤ r.endList.length then r.raise (.endListOverflow e.tag)
  else
    let appended := { r with endList := r.endList ++ [e] }
    if appended.endList.length = endFrameRecords ∧ 0 < appended.endPlaces then appended.flushOne else appended

/-! ### On the whole state -/

/-- "X is raised". -/
def State.raise (s : State) (c : Capture) : State :=
  s.setReport (s.report.raise c)

/-- An end record is written to the tail of the end list (R158). -/
def State.appendEnd (s : State) (e : EndRecord) : State :=
  s.setReport (s.report.appendEnd e)

end Sys2Proof.Machine
end

