-- ==== Sys2Proof/Machine/Operands.lean ====
section
/-! DEFINITION. The operands that messages carry: the message header, the STREAM items and the fields of every
management request, as 8.10 lays them out, and the range checks of the requests by ordinal. -/

namespace Sys2Proof.Machine

/-! ### The message header (8.10) -/

/-- Version, byte 0 of a payload. -/
def headerVersion (payload : List Byte) : Nat := field payload 0 1
/-- Message kind, byte 1. -/
def headerKind (payload : List Byte) : Nat := field payload 1 1
/-- Request number. -/
def headerNumber (payload : List Byte) : Nat := field payload 2 2
/-- Body length. -/
def headerBodyLength (payload : List Byte) : Nat := field payload 4 2
/-- Item count. -/
def headerItemCount (payload : List Byte) : Nat := field payload 6 2
/-- The body: bytes beyond 8 + body length are padding (R151). -/
def messageBody (payload : List Byte) : List Byte := slice payload 8 (headerBodyLength payload)

/-- The kinds of 8.10, Codes, that the part takes. -/
def kindStream : Nat := 0x10
/-- CONFIGURE. -/
def kindConfigure : Nat := 0x20
/-- LOAD_SAMPLE. -/
def kindLoadSample : Nat := 0x21
/-- RETIRE_SAMPLE. -/
def kindRetireSample : Nat := 0x22
/-- QUERY_SAMPLE. -/
def kindQuerySample : Nat := 0x23
/-- LOAD_ARTICULATION. -/
def kindLoadArticulation : Nat := 0x24
/-- LOAD_ZONES. -/
def kindLoadZones : Nat := 0x25
/-- LOAD_CURVE. -/
def kindLoadCurve : Nat := 0x26
/-- LOAD_MATRIX. -/
def kindLoadMatrix : Nat := 0x27
/-- QUERY_VOICE. -/
def kindQueryVoice : Nat := 0x28
/-- EVENT_MASK. -/
def kindEventMask : Nat := 0x29
/-- EVENT_CLEAR. -/
def kindEventClear : Nat := 0x2A
/-- EVENT_SET. -/
def kindEventSet : Nat := 0x2B
/-- QUERY_STATUS. -/
def kindQueryStatus : Nat := 0x2C
/-- RESYNC. -/
def kindResync : Nat := 0x2D
/-- RESET. -/
def kindReset : Nat := 0x2E

/-- A kind 0x20..0x2E that the management unit takes (R151). -/
def isManagementKind (kind : Nat) : Bool :=
  0x20 ≤ kind && kind ≤ 0x2E

/-- The body length of a kind's layout for an item count; `none` where the kind's body is of fixed length and the item
count is not 0 (R151, 8.10). -/
def layoutLength (kind items : Nat) : Option Nat :=
  if kind = kindLoadZones then some (4 + 13 * items)
  else if kind = kindEventMask then some (2 * items)
  else if kind = kindEventClear ∨ kind = kindEventSet then some items
  else if items ≠ 0 then none
  else if kind = kindConfigure then some 25
  else if kind = kindLoadSample then some 43
  else if kind = kindRetireSample ∨ kind = kindQuerySample ∨ kind = kindQueryVoice then some 4
  else if kind = kindLoadArticulation then some 10
  else if kind = kindLoadCurve then some 19
  else if kind = kindLoadMatrix then some 34
  else some 0

/-- R151: the header mark of a management message. The record count of LOAD_ZONES must equal the item count (8.10). -/
def headerMark (payload : List Byte) : HeaderMark :=
  let kind := headerKind payload
  if !isManagementKind kind || headerVersion payload != 1 then .badKind
  else if payload.length < 8 + headerBodyLength payload then .badLength
  else if layoutLength kind (headerItemCount payload) ≠ some (headerBodyLength payload) then .badLength
  else if kind = kindLoadZones ∧ field (messageBody payload) 2 2 ≠ headerItemCount payload then .badLength
  else .unmarked

/-! ### STREAM items (R152, 8.10) -/

/-- The length of an item type's layout; `none` for a type that is not 1..5. -/
def itemLength : Nat → Option Nat
  | 1 => some 20
  | 2 => some 12
  | 3 => some 6
  | 4 => some 2
  | 5 => some 6
  | _ => none

/-- The item of a type whose bytes, type and length included, are these. -/
def readItem (type : Nat) (b : List Byte) : StreamItem :=
  if type = 1 then
    .voice (.start (BitVec.ofNat 32 (field b 2 4)) (field b 6 2) (field b 8 1) (field b 9 1)
      (BitVec.ofNat 32 (field b 10 4)) (field b 14 2) (field b 16 4))
  else if type = 2 then
    .voice (.release (BitVec.ofNat 32 (field b 2 4)) (BitVec.ofNat 32 (field b 6 4)) (field b 10 2))
  else if type = 3 then .voice (.stop (BitVec.ofNat 32 (field b 2 4)))
  else if type = 4 then .voice .stopAll
  else .tick (BitVec.ofNat 32 (field b 2 4))

/-- R152: the items that fill a body exactly, at most `n` of them; `none` when the body is malformed. -/
def readItems : Nat → List Byte → Option (List StreamItem)
  | _, [] => some []
  | 0, _ :: _ => none
  | n + 1, b :: rest =>
    match itemLength b.toNat with
    | none => none
    | some len =>
      if field (b :: rest) 1 1 = len ∧ len ≤ (b :: rest).length then
        (readItems n ((b :: rest).drop len)).map fun more => readItem b.toNat (b :: rest) :: more
      else none

/-- R151 and R152: the items of a STREAM message; `none` when it is malformed. -/
def streamItems (payload : List Byte) : Option (List StreamItem) :=
  if headerVersion payload = 1 ∧ 8 + headerBodyLength payload ≤ payload.length then
    match readItems (headerBodyLength payload) (messageBody payload) with
    | none => none
    | some items => if items.length = headerItemCount payload then some items else none
  else none

/-! ### Checks by ordinal -/

/-- The first ordinal whose check does not hold. -/
def firstFailure : List (Nat × Bool) → Option Nat
  | [] => none
  | (ordinal, ok) :: rest => if ok then firstFailure rest else some ordinal

/-- Numbers of handles (R1). -/
def handleCount : Nat := 131072

/-! ### LOAD_SAMPLE (1.3) -/

/-- Ordinal 1. -/
def loadHandle (b : List Byte) : Nat := field b 0 4
/-- Ordinal 2. -/
def loadLane (b : List Byte) : Nat := field b 4 1
/-- Ordinal 3. -/
def loadBaseUnit (b : List Byte) : Nat := field b 5 8
/-- Ordinal 4. -/
def loadFrames (b : List Byte) : Nat := field b 13 4
/-- Ordinal 5. -/
def loadChannels (b : List Byte) : Nat := field b 17 1
/-- Ordinal 6. -/
def loadFormatCode (b : List Byte) : Nat := field b 18 1
/-- Ordinal 7. -/
def loadOrderCode (b : List Byte) : Nat := field b 19 1
/-- Ordinal 8. -/
def loadStride (b : List Byte) : Nat := field b 20 1
/-- Ordinal 9. -/
def loadRequestedHead (b : List Byte) : Nat := field b 21 4
/-- Ordinal 10. -/
def loadPageBase (b : List Byte) : Nat := field b 25 4
/-- Ordinal 11. -/
def loadLoopPresent (b : List Byte) : Nat := field b 29 1
/-- Ordinal 12. -/
def loadLoopStart (b : List Byte) : Nat := field b 30 4
/-- Ordinal 13. -/
def loadLoopStop (b : List Byte) : Nat := field b 34 4
/-- Ordinal 14. -/
def loadCheckPresent (b : List Byte) : Nat := field b 38 1
/-- Ordinal 15. -/
def loadCheckValue (b : List Byte) : Nat := field b 39 4

/-- The format of a code (8.10, Codes). -/
def formatOfCode : Nat → SampleFormat
  | 2 => .s16
  | 3 => .s24
  | _ => .s32

/-- The format's code. -/
def formatCode : SampleFormat → Nat
  | .s16 => 2
  | .s24 => 3
  | .s32 => 4

/-- Bytes per channel sample (R1). -/
def formatBytes : SampleFormat → Nat
  | .s16 => 2
  | .s24 => 3
  | .s32 => 4

/-- The byte order of a code (8.10, Codes). -/
def orderOfCode : Nat → ByteOrder
  | 0 => .le
  | _ => .be

/-- The byte order's code. -/
def orderCode : ByteOrder → Nat
  | .le => 0
  | .be => 1

/-- R3, step 3: ordinals 2 to 15 against the table of 1.3. -/
def loadChecks (b : List Byte) : List (Nat × Bool) :=
  let looped := loadLoopPresent b == 1
  [(2, decide (loadLane b ≤ 3)),
   (3, decide (loadBaseUnit b < 2 ^ 40)),
   (4, decide (1 ≤ loadFrames b)),
   (5, decide (1 ≤ loadChannels b) && decide (loadChannels b ≤ 8)),
   (6, decide (2 ≤ loadFormatCode b) && decide (loadFormatCode b ≤ 4)),
   (7, decide (loadOrderCode b ≤ 1)),
   (8, decide (loadChannels b * formatBytes (formatOfCode (loadFormatCode b)) ≤ loadStride b) &&
       decide (loadStride b ≤ 32)),
   (11, decide (loadLoopPresent b ≤ 1)),
   (12, !looped || decide (loadLoopStart b ≤ loadFrames b)),
   (13, !looped || (decide (loadLoopStop b ≤ loadFrames b) &&
       decide (loadLoopStart b + 1024 ≤ loadLoopStop b))),
   (14, decide (loadCheckPresent b ≤ 1))]

/-- R4: the requested head frames clamped to the head length H. -/
def clampHead (frames requested : Nat) : Nat :=
  min (min (requested / 1024 * 1024) 65536) (frames / 1024 * 1024)

/-! ### LOAD_ARTICULATION, LOAD_ZONES, LOAD_CURVE, LOAD_MATRIX (chapter 2) -/

/-- R22, ordinal 1. -/
def artIndex (b : List Byte) : Nat := field b 0 2
/-- R22, ordinal 2. -/
def artFirstZone (b : List Byte) : Nat := field b 2 2
/-- R22, ordinal 3. -/
def artZoneCount (b : List Byte) : Nat := field b 4 1
/-- R22, ordinal 4. -/
def artRoundRobin (b : List Byte) : Nat := field b 5 1
/-- R22, ordinal 5. -/
def artReleaseLength (b : List Byte) : Nat := field b 6 4

/-- R22: the checks in ordinal order. -/
def articulationChecks (b : List Byte) : List (Nat × Bool) :=
  [(1, decide (artIndex b ≤ 4095)),
   (2, decide (artFirstZone b ≤ 65535)),
   (3, decide (artZoneCount b ≤ 64) && decide (artFirstZone b + artZoneCount b ≤ 65536)),
   (4, decide (1 ≤ artRoundRobin b) && decide (artRoundRobin b ≤ 16)),
   (5, decide (64 ≤ artReleaseLength b) && decide (artReleaseLength b ≤ 262144))]

/-- R24, ordinal 1. -/
def zonesFirst (b : List Byte) : Nat := field b 0 2
/-- R24, ordinal 2. -/
def zonesCount (b : List Byte) : Nat := field b 2 2

/-- R24: the zone of record `p`. -/
def zonesRecord (b : List Byte) (p : Nat) : Zone :=
  let at0 := 4 + 13 * p
  { noteLow := field b at0 1, noteHigh := field b (at0 + 1) 1, velocityLow := field b (at0 + 2) 1,
    velocityHigh := field b (at0 + 3) 1, slot := field b (at0 + 4) 1, handle := field b (at0 + 5) 4,
    curve := field b (at0 + 9) 1, matrix := field b (at0 + 10) 1, trim := field b (at0 + 11) 2 }

/-- R24: the nine fields of record `p`, at ordinals 2 + 9p + 1 on. -/
def zoneChecks (z : Zone) (p : Nat) : List (Nat × Bool) :=
  let o := 2 + 9 * p
  [(o + 1, decide (z.noteLow ≤ 127)),
   (o + 2, decide (z.noteHigh ≤ 127) && decide (z.noteLow ≤ z.noteHigh)),
   (o + 3, decide (z.velocityLow ≤ 127)),
   (o + 4, decide (z.velocityHigh ≤ 127) && decide (z.velocityLow ≤ z.velocityHigh)),
   (o + 5, decide (z.slot ≤ 15)),
   (o + 6, decide (z.handle < handleCount)),
   (o + 7, decide (z.curve ≤ 15)),
   (o + 8, decide (z.matrix ≤ 255)),
   (o + 9, true)]

/-- R24: the checks in ordinal order. -/
def zonesChecks (b : List Byte) : List (Nat × Bool) :=
  [(1, decide (zonesFirst b ≤ 65535)),
   (2, decide (1 ≤ zonesCount b) && decide (zonesCount b ≤ 64) &&
       decide (zonesFirst b + zonesCount b ≤ 65536))] ++
  (List.range (zonesCount b)).flatMap fun p => zoneChecks (zonesRecord b p) p

/-- R29, ordinal 1. -/
def curveIndex (b : List Byte) : Nat := field b 0 1

/-- R29: point `i` of the request. -/
def curvePoint (b : List Byte) (i : Nat) : CurvePoint :=
  { velocity := field b (1 + i) 1, gain := field b (7 + 2 * i) 2 }

/-- R29: the six points of the request. -/
def curveOf (b : List Byte) : Curve :=
  { p0 := curvePoint b 0, p1 := curvePoint b 1, p2 := curvePoint b 2, p3 := curvePoint b 3, p4 := curvePoint b 4,
    p5 := curvePoint b 5 }

/-- R28, R29: v0 is 1, v5 is 127, and each velocity is greater than the one before it. -/
def curveRises (c : Curve) : Bool :=
  c.p0.velocity == 1 && c.p5.velocity == 127 && decide (c.p0.velocity < c.p1.velocity) &&
    decide (c.p1.velocity < c.p2.velocity) && decide (c.p2.velocity < c.p3.velocity) &&
    decide (c.p3.velocity < c.p4.velocity) && decide (c.p4.velocity < c.p5.velocity)

/-- R33, ordinal 1. -/
def matrixIndex (b : List Byte) : Nat := field b 0 2

/-- R33: the sixteen coefficients of the request, signed 16-bit values. -/
def matrixFold (b : List Byte) : Fold :=
  { left := (List.range 8).map fun c => signed 16 (field b (2 + 2 * c) 2),
    right := (List.range 8).map fun c => signed 16 (field b (18 + 2 * c) 2) }

/-! ### CONFIGURE (R167) -/

/-- The parameters of the request, in ordinal order. -/
def configOf (b : List Byte) : Configuration :=
  { sampleRate := field b 0 4, period := field b 4 2, lead := field b 6 1, voiceLimit := field b 7 2,
    lowWater := field b 9 1, quietFloor := field b 10 4, quietRun := field b 14 1, readTimeout := field b 15 1,
    laneThreshold := field b 16 2, tolerance := field b 18 2, errorWindow := field b 20 1, errorLimit := field b 21 1,
    missedLimit := field b 22 1, lostAction := if field b 23 1 = 0 then .freeze else .finish,
    autoRelock := field b 24 1 == 1 }

/-- R167: the ranges in ordinal order; J against the P of the same request, M against its W_t. -/
def configChecks (b : List Byte) : List (Nat × Bool) :=
  let c := configOf b
  [(1, c.sampleRate == 44100 || c.sampleRate == 48000 || c.sampleRate == 88200 || c.sampleRate == 96000),
   (2, c.period == 64 || c.period == 128 || c.period == 256 || c.period == 512 || c.period == 1024),
   (3, decide (2 ≤ c.lead) && decide (c.lead ≤ 16)),
   (4, decide (1 ≤ c.voiceLimit) && decide (c.voiceLimit ≤ 2048)),
   (5, decide (1 ≤ c.lowWater) && decide (c.lowWater ≤ 6)),
   (6, decide (c.quietFloor ≤ 8388607)),
   (7, decide (c.quietRun ≤ 255)),
   (8, decide (1 ≤ c.readTimeout) && decide (c.readTimeout ≤ 255)),
   (9, decide (1 ≤ c.laneThreshold) && decide (c.laneThreshold ≤ 65535)),
   (10, decide (2 * c.tolerance ≤ c.period)),
   (11, decide (4 ≤ c.errorWindow) && decide (c.errorWindow ≤ 64)),
   (12, decide (1 ≤ c.errorLimit) && decide (c.errorLimit ≤ c.errorWindow)),
   (13, decide (1 ≤ c.missedLimit) && decide (c.missedLimit ≤ 255)),
   (14, decide (field b 23 1 ≤ 1)),
   (15, decide (field b 24 1 ≤ 1))]

/-! ### Event requests (R182) -/

/-- The number of entries of an EVENT_MASK body. -/
def maskEntries (b : List Byte) : Nat := b.length / 2

/-- A code 1..20 (R182). -/
def isEventCode (n : Nat) : Bool :=
  decide (1 ≤ n) && decide (n ≤ 20)

/-- R182: entry p of EVENT_MASK has its code at ordinal 2p + 1 and its mask value at 2p + 2. -/
def maskChecks (b : List Byte) : List (Nat × Bool) :=
  (List.range (maskEntries b)).flatMap fun p =>
    [(2 * p + 1, isEventCode (field b (2 * p) 1)), (2 * p + 2, decide (field b (2 * p + 1) 1 ≤ 1))]

/-- R182: entry p of EVENT_CLEAR and EVENT_SET has its code at ordinal p + 1. -/
def codeChecks (b : List Byte) : List (Nat × Bool) :=
  (List.range b.length).map fun p => (p + 1, isEventCode (field b p 1))

end Sys2Proof.Machine
end

