-- ==== Sys2Proof/Machine/SampleMap.lean ====
section
/-! DEFINITION. The sample map (chapter 1): page runs, priming lists and records, the outcome of priming reads,
reference counts, and its part of a soft reset. -/

namespace Sys2Proof.Machine

/-! ### Heads and segments (R2, R5, R8) -/

/-- Bytes of a head-store page (R2). -/
def pageBytes : Nat := 65536

/-- Pages of the head store (R2). -/
def pageLimit : Nat := 262144

/-- Units of a whole segment (R8). -/
def segmentUnits : Nat := 16

/-- R5: head pages of a head of `frames` frames at a stride. -/
def headPages (frames stride : Nat) : Nat :=
  ceilDiv (frames * stride) pageBytes

/-- R8: the head units U of an entry. -/
def headUnits (e : SampleEntry) : Nat :=
  ceilDiv (e.headFrames * e.stride) 4096

/-- R8: the segments G of an entry. -/
def segmentCount (e : SampleEntry) : Nat :=
  ceilDiv (headUnits e) segmentUnits

/-- R8: the unit address of segment j. -/
def segmentAddress (e : SampleEntry) (j : Nat) : Nat :=
  e.baseUnit + segmentUnits * j

/-- R8: the unit count of segment j. -/
def segmentUnitCount (e : SampleEntry) (j : Nat) : Nat :=
  if j + 1 = segmentCount e then headUnits e - segmentUnits * (segmentCount e - 1) else segmentUnits

/-- R10: the bytes of segment j that belong to the head. -/
def segmentBytes (e : SampleEntry) (j : Nat) : Nat :=
  min pageBytes (e.headFrames * e.stride - pageBytes * j)

/-- The record of a priming sample just set up: every segment UNREAD with retry used 0 (R7). -/
def freshSegments (e : SampleEntry) : List Segment :=
  List.replicate (segmentCount e) { state := .unread, retryUsed := false }

/-- R8: the priming progress that the segments' marks mean. -/
def primingProgress (e : SampleEntry) (segments : List Segment) : Nat :=
  let done := (segments.filter fun g => g.state == .done).length
  match segments.getLast? with
  | some g => if g.state = .done then segmentUnits * (done - 1) + segmentUnitCount e (segmentCount e - 1)
              else segmentUnits * done
  | none => 0

/-- R9: the lowest-numbered UNREAD segment. -/
def lowestUnread (segments : List Segment) : Option Nat :=
  segments.findIdx? fun g => g.state == .unread

/-- The page run of an entry (R2): base and count; an entry with H = 0 owns none. -/
def runsOverlap (base count : Nat) (e : SampleEntry) : Bool :=
  decide (0 < e.pageCount) && decide (0 < count) && decide (base < e.pageBase + e.pageCount) &&
    decide (e.pageBase < base + count)

/-- R5: the lowest handle whose run shares a page with this run. -/
def State.overlapping? (s : State) (base count : Nat) : Option Nat :=
  (s.library.samples.find? fun row => runsOverlap base count row.2).map fun row => row.1

/-! ### Priming lists (R7) -/

/-- The priming record of the handle at the head of a list (R7). -/
def State.recordFor (s : State) (list : List Nat) : List Segment :=
  match list with
  | [] => []
  | h :: _ =>
    match s.entry? h with
    | some e => freshSegments e
    | none => []

/-- R7: a handle joins the tail of its lane's list; alone in it, it becomes the priming sample. -/
def State.joinPriming (s : State) (l : LaneId) (h : Nat) : State :=
  let lane := s.lane l
  let list := lane.primingList ++ [h]
  s.setLane l { lane with primingList := list,
                          segments := if lane.primingList.isEmpty then s.recordFor list else lane.segments }

/-- R7: a handle leaves its lane's list; when it was the priming sample, the next is set up. -/
def State.leavePriming (s : State) (l : LaneId) (h : Nat) : State :=
  let lane := s.lane l
  let list := lane.primingList.filter fun g => g != h
  s.setLane l { lane with primingList := list,
                          segments := if lane.primingList.head? = some h then s.recordFor list else lane.segments }

/-- R13: an outstanding read of a handle becomes one to be discarded. -/
def discardRead (h : Nat) : ReadEntry → ReadEntry
  | .busy (.priming g j d) address count timer => .busy (.priming g j (d || g == h)) address count timer
  | other => other

/-- R13: the reads of a handle's OUTSTANDING segments become reads to be discarded. -/
def State.discardReads (s : State) (l : LaneId) (h : Nat) : State :=
  let lane := s.lane l
  s.setLane l { lane with reads := lane.reads.map fun row => (row.1, discardRead h row.2) }

/-- R9 to R13: one priming read less is outstanding on the lane. -/
def State.countPrimingRead (s : State) (l : LaneId) : State :=
  s.setLane l { s.lane l with primingOutstanding := (s.lane l).primingOutstanding - 1 }

/-- The priming sample's segment record with one mark changed. -/
def State.markSegment (s : State) (l : LaneId) (j : Nat) (g : Segment) : State :=
  s.setLane l { s.lane l with segments := (s.lane l).segments.set j g }

/-- The segment of the lane's priming sample that a LIVE read belongs to, while it is OUTSTANDING (R10, R11). -/
def State.outstandingSegment? (s : State) (l : LaneId) (h j : Nat) : Option Segment :=
  if (s.lane l).primingList.head? = some h then
    match (s.lane l).segments[j]? with
    | some g => if g.state = .outstanding then some g else none
    | none => none
  else none

/-! ### The outcome of priming (R10, R11, R14) -/

/-- The head check of R14: no check value, or a CRC-32 over the H × S head bytes that equals it. -/
def State.headMatches (s : State) (e : SampleEntry) : Bool :=
  match e.check with
  | none => true
  | some c => crc32 (Memory.readBlock s.headStore (e.pageBase * pageBytes) (e.headFrames * e.stride)) == c

/-- R14: priming finishes. -/
def State.finishPriming (s : State) (l : LaneId) (h : Nat) (e : SampleEntry) : State :=
  if s.headMatches e then
    ((s.putEntry h { e with state := .ready }).leavePriming l h).raise (.primeDone h .ready)
  else
    ((s.putEntry h { e with state := .faulted, fault := some .check }).leavePriming l h).raise (.primeDone h .check)

/-- R10: a LIVE priming read completes OK. -/
def State.primingOk (s : State) (l : LaneId) (h j : Nat) (data : List Byte) : State :=
  let counted := s.countPrimingRead l
  match s.outstandingSegment? l h j, s.entry? h with
  | some g, some e =>
    let marked := counted.markSegment l j { g with state := .done }
    let written := marked.setHeadStore
      (Memory.write s.headStore ((e.pageBase + j) * pageBytes) (data.take (segmentBytes e j)))
    let segments := (marked.lane l).segments
    let advanced := { e with progress := primingProgress e segments }
    if segments.all (fun g => g.state == .done) then (written.putEntry h advanced).finishPriming l h advanced
    else written.putEntry h advanced
  | _, _ => counted

/-- R11, second case: priming fails. -/
def State.failPriming (s : State) (l : LaneId) (h : Nat) (e : SampleEntry) : State :=
  (((s.putEntry h { e with state := .faulted, fault := some .read }).discardReads l h).leavePriming l h).raise
    (.primeDone h .read)

/-- R11: a LIVE priming read fails. -/
def State.primingFailed (s : State) (l : LaneId) (h j address : Nat) (cause : ReadCause) : State :=
  match s.outstandingSegment? l h j, s.entry? h with
  | some g, some e =>
    let counted := (s.raise (.readError l address cause)).countPrimingRead l
    if !g.retryUsed && (s.lane l).state == .ready then
      counted.markSegment l j { state := .unread, retryUsed := true }
    else counted.failPriming l h e
  | _, _ => s.countPrimingRead l

/-- R12: the lane went OFFLINE with this segment OUTSTANDING. -/
def State.suspendSegment (s : State) (l : LaneId) (h j : Nat) : State :=
  match s.outstandingSegment? l h j with
  | some g => s.markSegment l j { g with state := .unread }
  | none => s

/-! ### Reference counts (R17) -/

/-- R17: a voice starts on the entry. -/
def State.countVoice (s : State) (h : Nat) : State :=
  match s.entry? h with
  | some e => s.putEntry h { e with refCount := e.refCount + 1 }
  | none => s

/-- R17: a voice that plays the entry ends; a RETIRING entry whose count reaches 0 becomes EMPTY. -/
def State.uncountVoice (s : State) (h : Nat) : State :=
  match s.entry? h with
  | some e =>
    if e.state = .retiring ∧ e.refCount ≤ 1 then s.clearEntry h
    else s.putEntry h { e with refCount := e.refCount - 1 }
  | none => s

/-! ### Soft reset (R20) -/

/-- R20: what an entry becomes; `none` is EMPTY. -/
def resetEntry (e : SampleEntry) : Option SampleEntry :=
  match e.state with
  | .retiring => none
  | .priming => some { e with refCount := 0, progress := 0 }
  | .ready => some { e with refCount := 0 }
  | .faulted => some { e with refCount := 0 }

/-- R20: the entries after a soft reset. -/
def resetEntries (t : Table SampleEntry) : Table SampleEntry :=
  t.filterMap fun row => (resetEntry row.2).map fun e => (row.1, e)

end Sys2Proof.Machine
end

