-- ==== Sys2Proof/Machine/Scheduler.lean ====
section
/-! DEFINITION. The fetch scheduler (chapter 4): chunks, parts and deadlines, the lane fetch queues, requests, freeing,
cancellation, draining and refill. -/

namespace Sys2Proof.Machine

/-! ### Chunks and parts (R65 to R68) -/

/-- Frames of a chunk. -/
def chunkFrames : Nat := 1024

/-- Slots of a ring. -/
def ringSlots : Nat := 8

/-- Bytes of a flash unit. -/
def unitBytes : Nat := 4096

/-- The loop that is in effect for a voice of this sample (R48, R65). -/
def loopOf (x : Voice) (e : SampleEntry) : Option SampleLoop :=
  if x.loopInEffect then e.loop else none

/-- R65: the source frame at stream position t. -/
def sourceFrame (x : Voice) (e : SampleEntry) (t : Nat) : Nat :=
  match loopOf x e with
  | none => x.sourceOffset + t
  | some l =>
    if x.sourceOffset + t < l.stop then x.sourceOffset + t
    else l.start + (x.sourceOffset + t - l.stop) % (l.stop - l.start)

/-- R65: f0, the first source frame of chunk k. -/
def chunkFirstFrame (x : Voice) (e : SampleEntry) (k : Nat) : Nat :=
  sourceFrame x e (k * chunkFrames)

/-- R65: chunk k lies past the sample end; with the loop in effect none does. -/
def chunkPastEnd (x : Voice) (e : SampleEntry) (k : Nat) : Bool :=
  (loopOf x e).isNone && decide (e.frames ≤ chunkFirstFrame x e k)

/-- A part of a chunk (R66): its first and last source frame, and the slot position of the first. -/
structure PartRange where
  first    : Nat
  last     : Nat
  position : Nat
deriving DecidableEq, Repr

/-- R66: the parts of chunk k. -/
def chunkParts (x : Voice) (e : SampleEntry) (k : Nat) : List PartRange :=
  let f0 := chunkFirstFrame x e k
  match loopOf x e with
  | none => [{ first := f0, last := min (f0 + 1023) (e.frames - 1), position := 0 }]
  | some l =>
    if f0 + 1023 < l.stop then [{ first := f0, last := f0 + 1023, position := 0 }]
    else [{ first := f0, last := l.stop - 1, position := 0 },
          { first := l.start, last := l.start + (f0 + 1023 - l.stop), position := l.stop - f0 }]

/-- R67: the flash byte at which a part begins. -/
def partFirstByte (e : SampleEntry) (p : PartRange) : Nat :=
  e.baseUnit * unitBytes + p.first * e.stride

/-- R67: the read's unit address. -/
def partAddress (e : SampleEntry) (p : PartRange) : Nat :=
  partFirstByte e p / unitBytes

/-- R67: the read's unit count. -/
def partUnitCount (e : SampleEntry) (p : PartRange) : Nat :=
  (e.baseUnit * unitBytes + (p.last + 1) * e.stride - 1) / unitBytes - partAddress e p + 1

/-- R67: the bytes of the returned data that are kept. -/
def partBytes (e : SampleEntry) (p : PartRange) (data : List Byte) : List Byte :=
  slice data (partFirstByte e p - partAddress e p * unitBytes) ((p.last - p.first + 1) * e.stride)

/-- R68: the deadline of chunk k. -/
def chunkDeadline (period : Nat) (x : Voice) (k : Nat) : PeriodIndex :=
  x.startPeriod + BitVec.ofNat 32 ((x.offset + k * chunkFrames) / period)

/-- R62: chunk k of a voice uses slot (k - h) mod 8. -/
def chunkSlot (x : Voice) (k : Nat) : Nat :=
  (k - x.headChunks) % ringSlots

/-- R62: the first byte of a slot's data area in the ring store. -/
def slotAddress (v j : Nat) : Nat :=
  slotIndex v j * 32768

/-- The sample entry that a voice plays. -/
def State.entryOf? (s : State) (x : Voice) : Option SampleEntry :=
  s.entry? x.handle

/-! ### The lane queues (R69, R70) -/

/-- R70: after every entry whose deadline is equal to or before its own, before the first whose deadline is after. An
entry whose deadline is 2^31 away is neither, and the part goes behind it (log 37). -/
def queueInsert (q : List QueueEntry) (n : QueueEntry) : List QueueEntry :=
  match q with
  | [] => [n]
  | x :: rest => if isBefore n.deadline x.deadline then n :: x :: rest else x :: queueInsert rest n

/-- The queue entry of part `i` of a chunk. -/
def queueEntry (v j : Nat) (deadline : PeriodIndex) (e : SampleEntry) (i : Nat) (p : PartRange) : QueueEntry :=
  { voice := v, slot := j, part := i, deadline := deadline, address := partAddress e p, unitCount := partUnitCount e p }

/-- A part joins a lane's queue. -/
def State.enqueue (s : State) (l : LaneId) (n : QueueEntry) : State :=
  s.setLane l { s.lane l with queue := queueInsert (s.lane l).queue n }

/-- The parts of a chunk join a lane's queue, part 1 first (R70). -/
def State.enqueueParts (s : State) (l : LaneId) (v j : Nat) (deadline : PeriodIndex) (e : SampleEntry)
    (parts : List PartRange) : State :=
  parts.zipIdx.foldl (fun s pi => s.enqueue l (queueEntry v j deadline e pi.2 pi.1)) s

/-- The parts of a slot leave their queue. -/
def State.unqueueSlot (s : State) (v j : Nat) : State :=
  s.setLanes (PerLane.map s.lanes fun l =>
    { l with queue := l.queue.filter fun n => !(n.voice == v && n.slot == j) })

/-- R63: a part that leaves its queue undispatched is marked FAILED. -/
def failWaiting (marks : List PartMark) : List PartMark :=
  marks.map fun m => if m = .waiting then .failed else m

/-! ### Asking for chunks (R73, R82) -/

/-- R70: a chunk asked of an OFFLINE lane is LOST from the start. -/
def State.loseNewChunk (s : State) (v j : Nat) (x : Voice) (e : SampleEntry) (k : Nat) : State :=
  (s.putSlot v j
    { state := .lost, chunk := k, deadline := chunkDeadline s.config.period x k, retryUsed := false,
      marks := (chunkParts x e k).map fun _ => .failed, outstanding := 0, successor := none }).raise
    (.fetchLost x.tag e.lane k)

/-- The slot takes chunk k and its parts join the queue of the sample's lane (R73 for an EMPTY slot, R82 for a
successor); on an OFFLINE lane the slot becomes LOST (R70). -/
def State.setUpChunk (s : State) (v j : Nat) (x : Voice) (e : SampleEntry) (k : Nat) : State :=
  if (s.lane e.lane).state = .offline then s.loseNewChunk v j x e k
  else
    (s.putSlot v j
      { state := .queued, chunk := k, deadline := chunkDeadline s.config.period x k, retryUsed := false,
        marks := (chunkParts x e k).map fun _ => .waiting, outstanding := 0, successor := none }).enqueueParts
      e.lane v j (chunkDeadline s.config.period x k) e (chunkParts x e k)

/-- R73: chunk k of the voice in record v is requested for its slot. Prefill and refill ask only for EMPTY and
DRAINING slots. -/
def State.requestChunk (s : State) (v : Nat) (x : Voice) (e : SampleEntry) (k : Nat) : State :=
  match s.slot? v (chunkSlot x k) with
  | none => s.setUpChunk v (chunkSlot x k) x e k
  | some slot =>
    if slot.state = .draining then s.putSlot v (chunkSlot x k) { slot with successor := some k } else s

/-- R74: chunks `k`, k + 1, … are requested, at most `n` of them, stopping before the first past the sample end. -/
def State.prefillFrom (v : Nat) (x : Voice) (e : SampleEntry) : Nat → Nat → State → State
  | 0, _, s => s
  | n + 1, k, s => if chunkPastEnd x e k then s else State.prefillFrom v x e n (k + 1) (s.requestChunk v x e k)

/-- R74: the prefill of a new voice. -/
def State.prefill (s : State) (v : Nat) (x : Voice) (e : SampleEntry) : State :=
  State.prefillFrom v x e ringSlots x.headChunks s

/-! ### Late starts (R72) -/

/-- R72: the states whose slots hold a chunk of the voice. -/
def holdsChunk (slot : Slot) : Bool :=
  slot.state != .draining

/-- R72: one slot's deadline grows by the shift. -/
def State.shiftSlot (s : State) (v : Nat) (delta : PeriodIndex) (j : Nat) : State :=
  match s.slot? v j with
  | none => s
  | some slot => if holdsChunk slot then s.putSlot v j { slot with deadline := slot.deadline + delta } else s

/-- The entries of a voice's WAITING parts in a queue, in ascending chunk order and part order (R72). Chunk h + i uses
slot i, so slot order is chunk order at a late start. -/
def waitingEntries (v : Nat) (q : List QueueEntry) : List QueueEntry :=
  (List.range ringSlots).flatMap fun j =>
    (q.filter fun n => n.voice == v && n.slot == j && n.part == 0) ++
      q.filter fun n => n.voice == v && n.slot == j && n.part != 0

/-- An entry with the deadline that its slot now has (R69). -/
def State.redated (s : State) (n : QueueEntry) : QueueEntry :=
  match s.slot? n.voice n.slot with
  | none => n
  | some slot => { n with deadline := slot.deadline }

/-- R72: a voice's WAITING parts leave their queue and are placed again, as if newly enqueued. -/
def State.replaceParts (s : State) (v : Nat) : State :=
  s.setLanes (PerLane.map s.lanes fun l =>
    { l with queue := ((waitingEntries v l.queue).map s.redated).foldl queueInsert
                        (l.queue.filter fun n => n.voice != v) })

/-- R72: a voice's deadlines move forward by `delta` and its WAITING parts are placed again. -/
def State.shiftDeadlines (s : State) (v : Nat) (delta : PeriodIndex) : State :=
  ((List.range ringSlots).foldl (fun s j => s.shiftSlot v delta j) s).replaceParts v

/-! ### Resolution of reads (R77, R78, R79, R82) -/

/-- R82: a DRAINING slot whose count is 0 becomes EMPTY, or queues its successor on the lane of the voice that now
owns the record. -/
def State.resolveDrained (s : State) (v j : Nat) (successor : Option Nat) : State :=
  match successor, s.voice? v with
  | some k, some x =>
    match s.entryOf? x with
    | some e => s.setUpChunk v j x e k
    | none => s.clearSlot v j
  | _, _ => s.clearSlot v j

/-- A read of a DRAINING slot resolves: the count falls, the part is FAILED (R63), and at 0 the slot resolves. -/
def State.drainRead (s : State) (v j p : Nat) (slot : Slot) : State :=
  if slot.outstanding ≤ 1 then s.resolveDrained v j slot.successor
  else s.putSlot v j { slot with outstanding := slot.outstanding - 1, marks := slot.marks.set p .failed }

/-- A read of a LOST slot resolves: the count falls (R77, R78). -/
def State.countLostRead (s : State) (v j p : Nat) (slot : Slot) : State :=
  s.putSlot v j { slot with outstanding := slot.outstanding - 1, marks := slot.marks.set p .failed }

/-- R77 on an IN_FLIGHT slot: the part's frames are written and it is IN; when every part is IN the slot is FULL. A
read of a chunk that no voice is there for, which no run reaches, is only counted off (log 24). -/
def State.fillPart (s : State) (v j p : Nat) (slot : Slot) (data : List Byte) : State :=
  match s.voice? v with
  | none => s.countLostRead v j p slot
  | some x =>
    match s.entryOf? x with
    | none => s.countLostRead v j p slot
    | some e =>
      match (chunkParts x e slot.chunk)[p]? with
      | none => s.countLostRead v j p slot
      | some range =>
        let marks := slot.marks.set p .filled
        let filled : Slot :=
          { slot with outstanding := slot.outstanding - 1, marks := marks,
                      state := if marks.all (fun m => m == .filled) then .full else .inFlight }
        (s.putSlot v j filled).setRingStore
          (Memory.write s.ringStore (slotAddress v j + range.position * e.stride) (partBytes e range data))

/-- R77: a lane reports a part's read complete with status OK. -/
def State.streamOk (s : State) (v j p : Nat) (data : List Byte) : State :=
  match s.slot? v j with
  | none => s
  | some slot =>
    match slot.state with
    | .inFlight => s.fillPart v j p slot data
    | .draining => s.drainRead v j p slot
    | .lost => s.countLostRead v j p slot
    | .queued => s
    | .full => s

/-- R78, final failure: the slot becomes LOST, its WAITING part leaves its queue, and FETCH_LOST is raised. `count` is
the parts outstanding that remain. -/
def State.loseSlot (s : State) (v j : Nat) (l : LaneId) (slot : Slot) (marks : List PartMark) (count : Nat) : State :=
  let lost := (s.putSlot v j { slot with state := .lost, marks := failWaiting marks, outstanding := count }).unqueueSlot v j
  match s.voice? v with
  | none => lost
  | some x => lost.raise (.fetchLost x.tag l slot.chunk)

/-- R78, retry: the part rejoins its lane queue with the slot's deadline. -/
def State.retryPart (s : State) (v j p : Nat) (l : LaneId) (slot : Slot) (address unitCount : Nat) : State :=
  (s.putSlot v j
    { slot with outstanding := slot.outstanding - 1, marks := slot.marks.set p .waiting, retryUsed := true }).enqueue l
    { voice := v, slot := j, part := p, deadline := slot.deadline, address := address, unitCount := unitCount }

/-- R78 and R79: a part's read fails. `retry` says that the lane allows a retry (READY, R93). -/
def State.failPart (s : State) (v j p : Nat) (l : LaneId) (retry : Bool) (address unitCount : Nat) : State :=
  match s.slot? v j with
  | none => s
  | some slot =>
    match slot.state with
    | .inFlight =>
      if retry && !slot.retryUsed then s.retryPart v j p l slot address unitCount
      else s.loseSlot v j l slot (slot.marks.set p .failed) (slot.outstanding - 1)
    | .draining => s.drainRead v j p slot
    | .lost => s.countLostRead v j p slot
    | .queued => s
    | .full => s

/-- R93: the failed read is one whose data would have been kept. -/
def State.readWanted (s : State) (v j : Nat) : Bool :=
  match s.slot? v j with
  | none => false
  | some slot => slot.state == .inFlight

/-- R79: an entry of the queue of a lane that goes OFFLINE: its slot becomes LOST, once for the slot. -/
def State.loseQueued (s : State) (l : LaneId) (n : QueueEntry) : State :=
  match s.slot? n.voice n.slot with
  | none => s
  | some slot => if slot.state = .lost then s else s.loseSlot n.voice n.slot l slot slot.marks slot.outstanding

/-! ### Giving slots back (R80, R81) -/

/-- R80: the voice in record v has passed chunk k. -/
def State.passChunk (s : State) (v : Nat) (x : Voice) (k : Nat) : State :=
  let j := chunkSlot x k
  match s.slot? v j with
  | none => s
  | some slot =>
    match slot.state with
    | .full => s.clearSlot v j
    | .lost =>
      if slot.outstanding = 0 then s.clearSlot v j
      else s.putSlot v j { slot with state := .draining, successor := none }
    | .queued => (s.clearSlot v j).unqueueSlot v j
    | .inFlight =>
      if slot.outstanding = 0 then (s.clearSlot v j).unqueueSlot v j
      else (s.putSlot v j { slot with state := .draining, marks := failWaiting slot.marks,
                                      successor := none }).unqueueSlot v j
    | .draining =>
      if slot.successor = some k then s.putSlot v j { slot with successor := none } else s

/-- R81 and R85: what a slot becomes when its voice is gone: `none` is EMPTY. -/
def abandonSlot (slot : Slot) : Option Slot :=
  if slot.outstanding = 0 then none
  else some { slot with state := .draining, marks := failWaiting slot.marks, successor := none }

/-- R81: one slot of a cancelled ring. -/
def State.cancelSlot (s : State) (v j : Nat) : State :=
  match s.slot? v j with
  | none => s
  | some slot =>
    match abandonSlot slot with
    | none => (s.clearSlot v j).unqueueSlot v j
    | some kept => (s.putSlot v j kept).unqueueSlot v j

/-- R81: a voice's ring is cancelled. -/
def State.cancelRing (s : State) (v : Nat) : State :=
  (List.range ringSlots).foldl (fun s j => s.cancelSlot v j) s

/-! ### Refill (R75, R76) -/

/-- R75: the first chunk of a voice's window. -/
def windowStart (x : Voice) : Nat :=
  max (x.emit.toNat / chunkFrames) x.headChunks

/-- R75: the chunk a slot is committed to. -/
def committedChunk : Option Slot → Option Nat
  | none => none
  | some slot => if slot.state = .draining then slot.successor else some slot.chunk

/-- R75: the chunks the ring of a record is committed to. -/
def State.committedChunks (s : State) (v : Nat) : List Nat :=
  (List.range ringSlots).filterMap fun j => committedChunk (s.slot? v j)

/-- R75: the window's chunks, ascending. -/
def windowChunks (x : Voice) : List Nat :=
  (List.range ringSlots).map fun i => windowStart x + i

/-- R76: the refill check of one voice. -/
def State.refillVoice (s : State) (v : Nat) : State :=
  match s.voice? v with
  | none => s
  | some x =>
    match s.entryOf? x with
    | none => s
    | some e =>
      let committed := s.committedChunks v
      if (committed.filter fun k => (windowChunks x).contains k).length ≤ s.config.lowWater then
        (windowChunks x).foldl (fun s k =>
          if chunkPastEnd x e k || committed.contains k then s else s.requestChunk v x e k) s
      else s

end Sys2Proof.Machine
end

