-- ==== Sys2Proof/Machine/Lanes.lean ====
section
/-! DEFINITION. The lane controllers (chapter 5): dispatch, resolution of reads, error windows and presence. -/

namespace Sys2Proof.Machine

/-! ### Dispatch (R9, R71, R89) -/

/-- A BUSY entry. -/
def ReadEntry.isBusy : ReadEntry → Bool
  | .busy _ _ _ _ => true
  | .stale _ => false

/-- R88: reads outstanding, the number of BUSY entries. -/
def Lane.readsOutstanding (x : Lane) : Nat :=
  (x.reads.filter fun row => row.2.isBusy).length

/-- Read numbers of a lane (R86). -/
def readNumbers : Nat := 32

/-- R88: the lowest FREE read number. -/
def Lane.freeNumber? (x : Lane) : Option Nat :=
  if Table.firstFree x.reads 0 < readNumbers then some (Table.firstFree x.reads 0) else none

/-- R71: the part at the head of the queue is marked OUTSTANDING and counted. -/
def markDispatched (slot : Slot) (p : Nat) : Slot :=
  { slot with state := if slot.state = .queued then .inFlight else slot.state,
              marks := slot.marks.set p .outstanding, outstanding := slot.outstanding + 1 }

/-- R71, R89: the part at the head of the fetch queue goes out under a read number. -/
def State.dispatchStream (s : State) (l : LaneId) (number : Nat) (n : QueueEntry) (rest : List QueueEntry) : State :=
  let lane := s.lane l
  let sent := s.setLane l
    { lane with queue := rest,
                reads := Table.insert lane.reads number
                  (.busy (.stream n.voice n.slot n.part) n.address n.unitCount s.config.readTimeout) }
  match s.slot? n.voice n.slot with
  | some slot => sent.putSlot n.voice n.slot (markDispatched slot n.part)
  | none => sent

/-- R9: the most priming reads outstanding on a lane. -/
def primingLimit : Nat := 4

/-- R9, R89: the lowest-numbered UNREAD segment of the priming sample goes out under a read number. -/
def State.dispatchPriming? (s : State) (l : LaneId) (number : Nat) : Option State :=
  let lane := s.lane l
  if primingLimit ≤ lane.primingOutstanding then none
  else
    match lane.primingList, lowestUnread lane.segments with
    | h :: _, some j =>
      match s.entry? h, lane.segments[j]? with
      | some e, some g =>
        some (s.setLane l
          { lane with reads := Table.insert lane.reads number
                        (.busy (.priming h j false) (segmentAddress e j) (segmentUnitCount e j) s.config.readTimeout),
                      segments := lane.segments.set j { g with state := .outstanding },
                      primingOutstanding := lane.primingOutstanding + 1 })
      | _, _ => none
    | _, _ => none

/-- R89: one dispatch, where its conditions hold. -/
def State.dispatchOne? (s : State) (l : LaneId) : Option State :=
  let lane := s.lane l
  if lane.state = .offline ∨ readNumbers ≤ lane.readsOutstanding then none
  else
    match lane.freeNumber? with
    | none => none
    | some number =>
      match lane.queue with
      | n :: rest => some (s.dispatchStream l number n rest)
      | [] => s.dispatchPriming? l number

/-- R89: the lane dispatches as long as the conditions hold; each dispatch takes one of the 32 numbers. -/
def State.dispatchLane (l : LaneId) : Nat → State → State
  | 0, s => s
  | n + 1, s =>
    match s.dispatchOne? l with
    | none => s
    | some s' => State.dispatchLane l n s'

/-- R89: every lane whose conditions may have changed dispatches, at the end of the step (log 11). -/
def State.dispatch (s : State) : State :=
  State.dispatchLane .lane3 readNumbers (State.dispatchLane .lane2 readNumbers
    (State.dispatchLane .lane1 readNumbers (State.dispatchLane .lane0 readNumbers s)))

/-! ### Failures and the error window (R96, R97) -/

/-- R96, R97: a failure is counted in the lane's error window, and may make a READY lane ERRORED. -/
def State.countFailure (s : State) (l : LaneId) : State :=
  let lane := s.lane l
  if lane.state = .offline then s
  else
    let errors := saturate16 (lane.errors + 1)
    if lane.state = .ready ∧ s.config.laneThreshold < errors then
      (s.setLane l { lane with errors := errors, state := .errored }).raise (.laneState l .ready .errored)
    else s.setLane l { lane with errors := errors }

/-! ### Resolving a read (R90 to R93) -/

/-- The entry's read number is free of the read: FREE after a completion, STALE after a timeout (R90, R91). -/
def State.releaseNumber (s : State) (l : LaneId) (number : Nat) (hold : Option Nat) : State :=
  let lane := s.lane l
  s.setLane l { lane with reads := match hold with
                                   | none => Table.erase lane.reads number
                                   | some ms => Table.insert lane.reads number (.stale ms) }

/-- R92, step 2, for a read that completed OK. -/
def State.resolveOk (s : State) (l : LaneId) (owner : ReadOwner) (data : List Byte) : State :=
  match owner with
  | .stream v j p => s.streamOk v j p data
  | .priming h j discard => if discard then s.countPrimingRead l else s.primingOk l h j data

/-- R93: READ_ERROR, when the slot is IN_FLIGHT. -/
def State.streamReadError (s : State) (v j : Nat) (l : LaneId) (address : Nat) (cause : ReadCause) : State :=
  if s.readWanted v j then s.raise (.readError l address cause) else s

/-- R92, steps 1 and 2, for a read that failed. -/
def State.resolveFailed (s : State) (l : LaneId) (owner : ReadOwner) (address unitCount : Nat) (cause : ReadCause) :
    State :=
  let counted := s.countFailure l
  match owner with
  | .stream v j p =>
    (counted.streamReadError v j l address cause).failPart v j p l ((counted.lane l).state == .ready) address unitCount
  | .priming h j discard => if discard then counted.countPrimingRead l else counted.primingFailed l h j address cause

/-- R87, R91 (Note): the data of an OK completion as the read takes it. An answer to an earlier read that is matched to a
newer one may be longer or shorter than the read: what it has beyond the read's units is dropped, and a byte that it does
not carry is a free value, `n` the free-value counter (log 9). -/
def fitData (n units : Nat) (data : List Byte) : List Byte :=
  data.take (units * unitBytes) ++
    (List.range (units * unitBytes - data.length)).map fun i => Config.missingByte n (data.length + i)

/-- The free values of an answer that is too short for its read are used up. -/
def State.useMissing (s : State) (units : Nat) (data : List Byte) : State :=
  if data.length < units * unitBytes then s.setFreeCount (s.freeCount + 1) else s

/-- READ_COMPLETION (R90, R92, R93). -/
def execReadCompletion (l : LaneId) (number : Fin 32) (status : ReadStatus) (data : List Byte) (s : State) :
    Host.Outcome State Fault Refusal :=
  if (s.lane l).state = .offline then .next s
  else
    match Table.get? (s.lane l).reads number with
    | none => .next s
    | some (.stale _) => .next (s.releaseNumber l number none).dispatch
    | some (.busy owner address unitCount _) =>
      match status with
      | .eccFail => .next ((s.releaseNumber l number none).resolveFailed l owner address unitCount .ecc).dispatch
      | .ok =>
        .next ((((s.releaseNumber l number none).resolveOk l owner (fitData s.freeCount unitCount data)).useMissing
          unitCount data).dispatch)

/-- READ_TIMEOUT (R91, R92, R93): the hold runs for the read timeout now configured. -/
def execReadTimeout (l : LaneId) (number : Fin 32) (s : State) : Host.Outcome State Fault Refusal :=
  match Table.get? (s.lane l).reads number with
  | some (.busy owner address unitCount _) =>
    .next ((s.releaseNumber l number (some s.config.readTimeout)).resolveFailed l owner address unitCount
      .timeout).dispatch
  | some (.stale _) => .next s
  | none => .next s

/-- STALE_HOLD_EXPIRY (R91). -/
def execStaleHoldExpiry (l : LaneId) (number : Fin 32) (s : State) : Host.Outcome State Fault Refusal :=
  match Table.get? (s.lane l).reads number with
  | some (.stale _) => .next (s.releaseNumber l number none).dispatch
  | some (.busy _ _ _ _) => .next s
  | none => .next s

/-! ### Error windows and presence (R96 to R100) -/

/-- The time of an error window, in milliseconds (R96). -/
def windowMs : Nat := 1000

/-- ERROR_WINDOW_END (R96, R98). -/
def execErrorWindowEnd (l : LaneId) (s : State) : Host.Outcome State Fault Refusal :=
  let lane := s.lane l
  match lane.window with
  | none => .next s
  | some _ =>
    if lane.state = .errored ∧ lane.errors = 0 then
      .next ((s.setLane l { lane with state := .ready, window := some windowMs }).raise (.laneState l .errored .ready))
    else .next (s.setLane l { lane with errors := 0, window := some windowMs })

/-- R99, step 2: one entry of the table of a lane that has gone OFFLINE. -/
def State.resolveOffline (l : LaneId) (s : State) (row : Nat × ReadEntry) : State :=
  match row.2 with
  | .busy (.stream v j p) address unitCount _ => s.failPart v j p l false address unitCount
  | .busy (.priming h j discard) _ _ _ => if discard then s else s.suspendSegment l h j
  | .stale _ => s

/-- R99, steps 1 and 4: the lane itself, its table empty and its window stopped. -/
def Lane.offline (x : Lane) : Lane :=
  { x with state := .offline, present := false, reads := [], errors := 0, window := none }

/-- R99, step 3: every part leaves the queue and its slot becomes LOST. -/
def State.loseQueue (s : State) (l : LaneId) : State :=
  let lost := (s.lane l).queue.foldl (fun s n => s.loseQueued l n) s
  lost.setLane l { lost.lane l with queue := [] }

/-- PRESENCE_LOST (R99, R79, R12). The reads are resolved in the order of their numbers (log 12). -/
def execPresenceLost (l : LaneId) (s : State) : Host.Outcome State Fault Refusal :=
  let lane := s.lane l
  if lane.present then
    let away := (s.setLane l lane.offline).raise (.laneState l lane.state .offline)
    let resolved := lane.reads.foldl (State.resolveOffline l) away
    let counted := resolved.setLane l { resolved.lane l with primingOutstanding := 0 }
    .next (counted.loseQueue l).dispatch
  else .next s

/-- PRESENCE_RETURNED (R100). -/
def execPresenceReturned (l : LaneId) (s : State) : Host.Outcome State Fault Refusal :=
  let lane := s.lane l
  if lane.present then .next s
  else
    .next ((s.setLane l { lane with state := .ready, present := true, reads := [], errors := 0,
                                    window := some windowMs }).raise (.laneState l lane.state .ready)).dispatch

/-! ### Soft reset (R20, R85, R102) -/

/-- R102: a BUSY PRIMING entry is to be discarded. -/
def discardAnyRead : ReadEntry → ReadEntry
  | .busy (.priming h j _) address count timer => .busy (.priming h j true) address count timer
  | other => other

/-- R20, R85, R102: a lane after a soft reset; the priming sample's record is set up afresh. -/
def State.resetLane (s : State) (x : Lane) : Lane :=
  { x with reads := x.reads.map fun row => (row.1, discardAnyRead row.2)
           errors := 0
           window := if x.state = .offline then none else some windowMs
           queue := []
           segments := s.recordFor x.primingList }

/-- R85: the slots after a soft reset. -/
def resetSlots (t : Table Slot) : Table Slot :=
  t.filterMap fun row => (abandonSlot row.2).map fun x => (row.1, x)

end Sys2Proof.Machine
end

