-- ==== Sys2Proof/Machine/Voices.lean ====
section
/-! DEFINITION. The voice controller (chapter 3): start, steal, release, stop, and the ending of a voice. -/

namespace Sys2Proof.Machine

/-! ### The tag map (R39) -/

/-- R39: the record of the non-FREE voice that carries a tag. -/
def State.findTag? (s : State) (tag : Tag) : Option Nat :=
  (s.voices.find? fun row => row.2.tag == tag).map fun row => row.1

/-- R39: the tag map, from the tag of each non-FREE voice to its record. -/
def State.tagMap (s : State) : List (Tag × Nat) :=
  s.voices.map fun row => (row.2.tag, row.1)

/-! ### Levels and gains (R45, R131, R132) -/

/-- The full level. -/
def fullLevel : Nat := 32768

/-- R132: the level of a ramp at stream position t; before its start no ramp covers the frame. -/
def Ramp.levelAt (r : Ramp) (t : Int) : Nat :=
  if t < r.start then fullLevel
  else if (t - r.start).toNat < r.length then r.level * (r.length - (t - r.start).toNat) / r.length
  else 0

/-- R131, R132: the level of the ramp that a voice holds, if any, at stream position t. -/
def rampLevel (r : Option Ramp) (t : Int) : Nat :=
  match r with
  | none => fullLevel
  | some ramp => ramp.levelAt t

/-- R45, R131: the effective gain. -/
def effectiveGain (gain level : Nat) : Nat :=
  (gain * level + 16384) / 32768

/-- R45: a voice's current effective gain. -/
def Voice.currentGain (x : Voice) : Nat :=
  effectiveGain x.gain (rampLevel x.ramp x.emit)

/-! ### Ending a voice (R57, R58) -/

/-- R58: frames rendered, saturating. -/
def framesRendered (position : Int) : Nat :=
  min position.toNat 4294967295

/-- R58: the end record of a voice. -/
def Voice.endRecord (x : Voice) (reason : EndReason) (position : Int) : EndRecord :=
  { tag := x.tag, reason := reason, frames := framesRendered position, dropouts := x.dropouts, clips := x.clips }

/-- R57: the voice of a record ends; `position` gives the frames rendered (R58). -/
def State.endVoiceAt (s : State) (v : Nat) (reason : EndReason) (position : Int) : State :=
  match s.voice? v with
  | none => s
  | some x => (((s.appendEnd (x.endRecord reason position)).uncountVoice x.handle).cancelRing v).freeVoice v

/-- R57: the voice of a record ends at its emit position. -/
def State.endVoice (s : State) (v : Nat) (reason : EndReason) : State :=
  match s.voice? v with
  | none => s
  | some x => s.endVoiceAt v reason x.emit

/-- R60: every non-FREE voice ends CADENCE, in record index order. -/
def State.endAllVoices (s : State) : State :=
  (Table.keys s.voices).foldl (fun s v => s.endVoice v .cadence) s

/-! ### Late starts (R50, R51) -/

/-- R50: the voice of record v is made late to a horizon that its start period is before. -/
def State.makeLate (s : State) (v : Nat) (x : Voice) (horizon : PeriodIndex) : State :=
  ((s.putVoice v { x with startPeriod := horizon, late := true }).raise
    (.lateStart x.tag x.startPeriod horizon)).shiftDeadlines v (horizon - x.startPeriod)

/-- R50, R51: the voice of record v, if PENDING, is judged against a horizon. -/
def State.judgeLate (s : State) (v : Nat) (horizon : PeriodIndex) : State :=
  match s.voice? v with
  | none => s
  | some x => if x.state = .pending ∧ isBefore x.startPeriod horizon then s.makeLate v x horizon else s

/-- R51: every PENDING voice is judged, in record index order. -/
def State.judgeAllLate (s : State) (horizon : PeriodIndex) : State :=
  (Table.keys s.voices).foldl (fun s v => s.judgeLate v horizon) s

/-! ### VOICE_START (R42 to R50) -/

/-- R47: a start is refused. -/
def State.refuseStart (s : State) (tag : Tag) (reason : EndReason) : State :=
  (s.appendEnd { tag := tag, reason := reason, frames := 0, dropouts := 0, clips := 0 }).raise
    (.startRefused tag reason)

/-- R45: the states whose voices may be stolen. -/
def isCandidate (x : Voice) : Bool :=
  x.state == .releasing || x.state == .stopping

/-- R45: of two candidates, the one with the lower current effective gain, or the earlier start order at equal gain. Of
two of equal gain whose start orders are 2^31 apart neither is the earlier (R40); the one met first, that of the lower
record index, stays (log 35). -/
def betterVictim (best row : Nat × Voice) : Nat × Voice :=
  if row.2.currentGain < best.2.currentGain then row
  else if row.2.currentGain = best.2.currentGain ∧ isBefore row.2.startOrder best.2.startOrder then row
  else best

/-- R45: the victim. -/
def chooseVictim (t : Table Voice) : Option (Nat × Voice) :=
  match t.filter fun row => isCandidate row.2 with
  | [] => none
  | row :: rest => some (rest.foldl betterVictim row)

/-- R48: the source offset clamped to the head. -/
def clampSource (e : SampleEntry) (offset : Nat) : Nat :=
  if 1024 ≤ e.headFrames then min offset (e.headFrames - 1024) else 0

/-- R48: the loop is in effect for a source offset. -/
def loopApplies (e : SampleEntry) (a : Nat) : Bool :=
  match e.loop with
  | none => false
  | some l => decide (a < l.stop)

/-- R48: the head chunk count h. -/
def headChunkCount (e : SampleEntry) (a : Nat) : Nat :=
  if e.headFrames = 0 then 0
  else
    match e.loop with
    | none => (e.headFrames - a) / 1024
    | some l => if a < l.stop then min ((e.headFrames - a) / 1024) ((l.stop - a) / 1024) else (e.headFrames - a) / 1024

/-- R48: the record of an accepted start. -/
def State.newVoice (s : State) (e : SampleEntry) (tag : Tag) (articulation zone velocity : Nat) (period : PeriodIndex)
    (offset source : Nat) : Voice :=
  let z := s.zone zone
  let o := min offset (s.config.period - 1)
  let a := clampSource e source
  { state := .pending, tag := tag, startOrder := s.nextOrder, handle := z.handle, zone := zone, matrix := z.matrix,
    gain := s.zoneGain z (clampVelocity velocity), releaseLength := (s.articulation articulation).releaseLength,
    startPeriod := period, offset := o, sourceOffset := a, loopInEffect := loopApplies e a,
    headChunks := headChunkCount e a, emit := -(o : Int), releasePoint := none, ramp := none, quietCount := 0,
    quiet := .audible, dropouts := 0, clips := 0, late := false }

/-- R48 to R50: the start is accepted into record v. -/
def State.acceptStart (s : State) (v : Nat) (e : SampleEntry) (x : Voice) (articulation : Nat) : State :=
  let counted := ((s.putVoice v x).countVoice x.handle).setNextOrder (s.nextOrder + 1)
  let advanced := counted.putArticulation articulation (s.articulation articulation).advance
  let filled := advanced.prefill v x e
  match s.cadence.horizon with
  | none => filled
  | some q => filled.judgeLate v q

/-- R44 to R46: a record is allocated, by a steal when V voices are non-FREE, and the start accepted into it. -/
def State.allocateStart (s : State) (e : SampleEntry) (tag : Tag) (articulation zone velocity : Nat)
    (period : PeriodIndex) (offset source : Nat) : State :=
  if s.voices.length < s.config.voiceLimit then
    s.acceptStart (Table.firstFree s.voices 0) e
      (s.newVoice e tag articulation zone velocity period offset source) articulation
  else
    match chooseVictim s.voices with
    | none => s.refuseStart tag .voiceLimit
    | some (v, victim) =>
      let stolen := (s.endVoice v .stolen).raise (.voiceStolen victim.tag tag)
      stolen.acceptStart v e (stolen.newVoice e tag articulation zone velocity period offset source) articulation

/-- R43: what the sample and lane checks answer: `none` is a pass. -/
def State.startRefusal? (s : State) (entry : Option SampleEntry) : Option EndReason :=
  match entry with
  | none => some .notReady
  | some e =>
    match e.state with
    | .priming => some .notReady
    | .retiring => some .notReady
    | .faulted => some .sampleFaulted
    | .ready => if (s.lane e.lane).state = .offline then some .laneOffline else none

/-- R42 to R50: a START item is taken. -/
def State.takeStart (s : State) (tag : Tag) (articulation note velocity : Nat) (period : PeriodIndex)
    (offset source : Nat) : State :=
  if (s.findTag? tag).isSome then s.raise (.tagInUse tag)
  else
    match s.chooseZone? articulation note (clampVelocity velocity) with
    | none => s.refuseStart tag .noZone
    | some zone =>
      match s.startRefusal? (s.entry? (s.zone zone).handle), s.entry? (s.zone zone).handle with
      | some reason, _ => s.refuseStart tag reason
      | none, none => s
      | none, some e => s.allocateStart e tag articulation zone velocity period offset source

/-! ### VOICE_RELEASE (R52 to R54) -/

/-- R52: the release stream position. Of a PLAYING voice R54 says that it is at least 1; for a release period 2^31 or
more periods after the start R52's signed d is negative all the same, and the position with it (log 36). -/
def releasePosition (period : Nat) (x : Voice) (release : PeriodIndex) (offset : Nat) : Int :=
  periodDiff release x.startPeriod * period + ((min offset (period - 1) : Nat) - (x.offset : Int))

/-- R53: the stream position of frame 0 of the render horizon, by the formula with the signed difference of R52. For a
voice that has sounded for 2^31 periods or more it is not the emit position; the formula is followed (log 36). -/
def horizonPosition (period : Nat) (x : Voice) (horizon : PeriodIndex) : Int :=
  periodDiff horizon x.startPeriod * period - x.offset

/-- R54: a release stream position is applied. A position that lies before the emit position of a PLAYING voice, which
R54 excludes and R52's formula gives from 2^31 periods on, becomes the pending release point as any other, and is never
reached (log 36). -/
def State.applyRelease (s : State) (v : Nat) (x : Voice) (position : Int) : State :=
  if x.state = .pending ∧ position ≤ 0 then s.endVoice v .cancelled
  else s.putVoice v { x with releasePoint := some position }

/-- R53: the release is late. -/
def State.releaseLate (s : State) (release : PeriodIndex) : Option PeriodIndex :=
  match s.cadence.horizon with
  | none => none
  | some q => if isBefore release q then some q else none

/-- R52 to R54: a RELEASE item is taken. -/
def State.takeRelease (s : State) (tag : Tag) (release : PeriodIndex) (offset : Nat) : State :=
  match s.findTag? tag with
  | none => s.raise (.unknownTag tag .release)
  | some v =>
    match s.voice? v with
    | none => s
    | some x =>
      if x.state = .releasing ∨ x.state = .stopping then s
      else
        match s.releaseLate release with
        | none => s.applyRelease v x (releasePosition s.config.period x release offset)
        | some q =>
          (s.raise (.lateRelease tag release q)).applyRelease v x (horizonPosition s.config.period x q)

/-! ### VOICE_STOP and STOP_ALL (R55, R56) -/

/-- Frames of a STOP ramp (R55). -/
def stopLength : Nat := 64

/-- R55: a PLAYING or RELEASING voice becomes STOPPING from the level in effect at its emit position. -/
def Voice.stopping (x : Voice) : Voice :=
  { x with state := .stopping, releasePoint := none,
           ramp := some { kind := .stop, start := x.emit, level := rampLevel x.ramp x.emit, length := stopLength } }

/-- R55: the stop applied to the voice of a record. -/
def State.stopVoice (s : State) (v : Nat) : State :=
  match s.voice? v with
  | none => s
  | some x =>
    match x.state with
    | .pending => s.endVoice v .cancelled
    | .playing => s.putVoice v x.stopping
    | .releasing => s.putVoice v x.stopping
    | .stopping => s

/-- R55: a STOP item is taken. -/
def State.takeStop (s : State) (tag : Tag) : State :=
  match s.findTag? tag with
  | none => s.raise (.unknownTag tag .stop)
  | some v => s.stopVoice v

/-- R56: a STOP_ALL item is taken. -/
def State.takeStopAll (s : State) : State :=
  (Table.keys s.voices).foldl (fun s v => s.stopVoice v) s

/-! ### Taking voice requests (R41, R153) -/

/-- R153: the ticks at the head of the list with no voice item ahead of them are handed on. -/
def readyTicks (clock : Nat) (ticks : List PendingTick) : List HandedTick :=
  (ticks.takeWhile fun t => t.ahead == 0).map fun t => { index := t.index, arrival := clock }

/-- R153: a voice item has been taken: every count falls by one, and ticks whose count is 0 are handed on, at the local
clock time `clock`. -/
def Port.itemTaken (p : Port) (clock : Nat) : Port :=
  let counted := p.pendingTicks.map fun t => { t with ahead := t.ahead - 1 }
  { p with pendingTicks := counted.dropWhile fun t => t.ahead == 0, handed := p.handed ++ readyTicks clock counted }

/-- R41: an item is off the head of the voice request queue and the request has been carried out whole. -/
def State.finishItem (s : State) : State :=
  (s.setPort (s.port.itemTaken s.cadence.clock)).dispatch

/-- R41: the item at the head of the voice request queue is taken off it. -/
def State.popItem (s : State) (rest : List VoiceItem) : State :=
  s.setPort { s.port with voiceQueue := rest }

/-- VOICE_START (R48): waits while a pass is under way (R41) and where no START item is at the head (log 1). -/
def execVoiceStart (s : State) : Host.Outcome State Fault Refusal :=
  if s.passUnderWay then .next s
  else
    match s.port.voiceQueue with
    | .start tag articulation note velocity period offset source :: rest =>
      .next ((s.popItem rest).takeStart tag articulation note velocity period offset source).finishItem
    | _ => .next s

/-- VOICE_RELEASE (R52): waits as VOICE_START does. -/
def execVoiceRelease (s : State) : Host.Outcome State Fault Refusal :=
  if s.passUnderWay then .next s
  else
    match s.port.voiceQueue with
    | .release tag period offset :: rest => .next ((s.popItem rest).takeRelease tag period offset).finishItem
    | _ => .next s

/-- VOICE_STOP (R55): waits as VOICE_START does. -/
def execVoiceStop (s : State) : Host.Outcome State Fault Refusal :=
  if s.passUnderWay then .next s
  else
    match s.port.voiceQueue with
    | .stop tag :: rest => .next ((s.popItem rest).takeStop tag).finishItem
    | _ => .next s

/-- STOP_ALL (R56): waits as VOICE_START does. -/
def execStopAll (s : State) : Host.Outcome State Fault Refusal :=
  if s.passUnderWay then .next s
  else
    match s.port.voiceQueue with
    | .stopAll :: rest => .next ((s.popItem rest).takeStopAll).finishItem
    | _ => .next s

end Sys2Proof.Machine
end

