-- ==== Sys2Proof/Machine/Render.lean ====
section
/-! DEFINITION. The render engine (chapter 7): where each frame comes from, the four arithmetic stages, ramps, the
sample end, quiet suppression, and the emission of blocks into the egress data queue (R156, R157). -/

namespace Sys2Proof.Machine

/-! ### Stage 1: conversion (R129) -/

/-- The number that the bytes of a channel sample spell in the entry's byte order. -/
def rawSample (order : ByteOrder) (bytes : List Byte) : Nat :=
  match order with
  | .le => ofLE bytes
  | .be => ofBE bytes

/-- R129: the 24-bit value of a stored channel sample. -/
def convertSample (format : SampleFormat) (order : ByteOrder) (bytes : List Byte) : Int :=
  match format with
  | .s16 => signed 16 (rawSample order bytes) * 256
  | .s24 => signed 24 (rawSample order bytes)
  | .s32 => min ((signed 32 (rawSample order bytes) + 128) / 256) 8388607

/-- R126: the channel samples of the frame whose bytes begin at an address. -/
def frameChannels (m : Memory) (address : Nat) (e : SampleEntry) : List Int :=
  let width := formatBytes e.format
  (List.range e.channels).map fun c =>
    convertSample e.format e.order (Memory.readBlock m (address + c * width) width)

/-! ### Where a frame comes from (R125 to R127) -/

/-- R125: the frame at stream position t is past the end. -/
def framePastEnd (x : Voice) (e : SampleEntry) (t : Nat) : Bool :=
  (loopOf x e).isNone && decide (e.frames ≤ sourceFrame x e t)

/-- R126: the channel samples of the frame at stream position t; `some []` is a zero frame, `none` a silent frame
(R127). -/
def State.frameAt (s : State) (v : Nat) (x : Voice) (e : SampleEntry) (t : Int) : Option (List Int) :=
  if t < 0 then some []
  else
    let n := t.toNat
    if framePastEnd x e n then some []
    else
      let k := n / chunkFrames
      if k < x.headChunks then
        some (frameChannels s.headStore (e.pageBase * pageBytes + sourceFrame x e n * e.stride) e)
      else
        match s.slot? v (chunkSlot x k) with
        | none => none
        | some slot =>
          if slot.state = .full ∧ slot.chunk = k then
            some (frameChannels s.ringStore (slotAddress v (chunkSlot x k) + (n - k * chunkFrames) * e.stride) e)
          else none

/-! ### Stages 2 to 4 (R130, R131, R133) -/

/-- R130: the sum of channel samples times coefficients, over the channels the frame has. -/
def foldSum (samples coefficients : List Int) : Int :=
  (List.zipWith (fun a m => a * m) samples coefficients).foldl (fun acc p => acc + p) 0

/-- R133, before saturation. -/
def scaleSum (acc : Int) (gain : Nat) : Int :=
  (acc * gain + 2 ^ 28) / 2 ^ 29

/-- R133: the lowest and the highest output sample. -/
def saturate24 (y : Int) : Int :=
  max (-8388608) (min y 8388607)

/-- An output frame and whether one of its samples was saturated. -/
structure OutputFrame where
  left    : Int
  right   : Int
  clipped : Bool
deriving DecidableEq, Repr

/-- Stages 2 to 4 for one frame. -/
def outputFrame (fold : Fold) (samples : List Int) (gain : Nat) : OutputFrame :=
  let l := scaleSum (foldSum samples fold.left) gain
  let r := scaleSum (foldSum samples fold.right) gain
  { left := saturate24 l, right := saturate24 r, clipped := saturate24 l != l || saturate24 r != r }

/-! ### What happens inside a block (R123, R134 to R137) -/

/-- R137: the index of the first frame past the end, in a block of `period` frames. -/
def endIndex (period : Nat) (x : Voice) (e : SampleEntry) : Option Nat :=
  match loopOf x e with
  | some _ => none
  | none =>
    let d : Int := (e.frames : Int) - x.sourceOffset - x.emit
    if d < period then some d.toNat else none

/-- R134: the release point, when the block renders its frame and the frame is not past the end. -/
def releaseReached (period : Nat) (x : Voice) (e : SampleEntry) : Option Int :=
  match x.releasePoint with
  | none => none
  | some point =>
    if x.state = .playing ∧ x.emit ≤ point ∧ point < x.emit + period ∧
        (endIndex period x e).all (fun j => decide (point - x.emit < j)) then some point
    else none

/-- R123, R134: the record as its block makes it: PLAYING from PENDING, and RELEASING from the release point on. -/
def enterBlock (period : Nat) (x : Voice) (e : SampleEntry) : Voice :=
  let begun := { x with state := if x.state = .pending then .playing else x.state }
  match releaseReached period begun e with
  | none => begun
  | some point =>
    { begun with state := .releasing, releasePoint := none,
                 ramp := some { kind := .release, start := point, level := fullLevel, length := x.releaseLength } }

/-- R136: the index of the frame at which the ramp runs out. -/
def runOutIndex (period : Nat) (x : Voice) : Option Nat :=
  match x.ramp with
  | none => none
  | some r =>
    let d : Int := r.start + r.length - 1 - x.emit
    if 0 ≤ d ∧ d < period then some d.toNat else none

/-- The end reason of a ramp that ran out (R136). -/
def rampReason (x : Voice) : EndReason :=
  match x.ramp with
  | none => .released
  | some r =>
    match r.kind with
    | .release => .released
    | .stop => .stopped

/-- R136, R137: how a block ends its voice: the reason, the valid frames and the position that the end record shows. -/
structure BlockEnding where
  reason   : EndReason
  valid    : Nat
  position : Int
deriving DecidableEq, Repr

/-- R137: the sample end or the ramp, whichever comes first in the block. `x` is the record after `enterBlock`. -/
def blockEnding (period : Nat) (x : Voice) (e : SampleEntry) : Option BlockEnding :=
  let ramp : BlockEnding := { reason := rampReason x, valid := period, position := x.emit + period }
  match endIndex period x e, runOutIndex period x with
  | none, none => none
  | none, some _ => some ramp
  | some j, none =>
    some { reason := .endOfSample, valid := j, position := (e.frames : Int) - x.sourceOffset }
  | some j, some u =>
    if j ≤ u then some { reason := .endOfSample, valid := j, position := (e.frames : Int) - x.sourceOffset }
    else some ramp

/-- The frames of a block as rendered: samples, silent frames (R127) and saturation (R133). -/
structure Rendered where
  frames  : List (Int × Int)
  silent  : Nat
  clipped : Bool
deriving DecidableEq, Repr

/-- R124 to R133: the frames of a block. `x` is the record after `enterBlock`. Both ring chunks of a block that straddles
two are judged in this one state (DESIGN CHOICE, log 38: R127 gives each run of frames its own moment). -/
def State.renderFrames (s : State) (v : Nat) (x : Voice) (e : SampleEntry) : Rendered :=
  let fold := (s.matrix x.matrix).active
  let sources := (List.range s.config.period).map fun i => (x.emit + i, s.frameAt v x e (x.emit + i))
  let outputs := sources.map fun ts =>
    outputFrame fold (ts.2.getD []) (effectiveGain x.gain (rampLevel x.ramp ts.1))
  { frames := outputs.map fun y => (y.left, y.right)
    silent := (sources.filter fun ts => ts.2.isNone).length
    clipped := outputs.any fun y => y.clipped }

/-! ### Quiet suppression (R138 to R141) -/

/-- R138: the block is quiet. -/
def isQuietBlock (floor : Nat) (r : Rendered) : Bool :=
  r.silent == 0 && r.frames.all fun f => decide (f.1.natAbs ≤ floor) && decide (f.2.natAbs ≤ floor)

/-- R141: what becomes of a block: sent or withheld, its quiet flags, the voice's quiet count and state, and whether
quiet suppression ends the voice. -/
structure Disposition where
  sent       : Bool
  quietEnter : Bool
  resume     : Bool
  count      : Nat
  quiet      : QuietState
  tail       : Bool
deriving DecidableEq, Repr

/-- R139 and R140, for a session with Q above 0. `x` is the record at the end of the block. -/
def suppress (quietRun : Nat) (x : Voice) (quiet : Bool) : Disposition :=
  match x.quiet with
  | .audible =>
    if !quiet then { sent := true, quietEnter := false, resume := false, count := 0, quiet := .audible, tail := false }
    else if x.quietCount + 1 < quietRun then
      { sent := true, quietEnter := false, resume := false, count := x.quietCount + 1, quiet := .audible, tail := false }
    else if x.state = .releasing then
      { sent := true, quietEnter := false, resume := false, count := x.quietCount + 1, quiet := .audible, tail := true }
    else
      { sent := true, quietEnter := true, resume := false, count := x.quietCount + 1, quiet := .quiet, tail := false }
  | .quiet =>
    if !quiet then { sent := true, quietEnter := false, resume := true, count := 0, quiet := .audible, tail := false }
    else if x.state = .releasing then
      { sent := true, quietEnter := false, resume := false, count := x.quietCount, quiet := .quiet, tail := true }
    else
      { sent := false, quietEnter := false, resume := false, count := x.quietCount, quiet := .quiet, tail := false }

/-- R141: a block that ends its voice, or any block with Q = 0, is sent and not judged. -/
def dispose (c : Configuration) (x : Voice) (r : Rendered) (ending : Option BlockEnding) : Disposition :=
  if ending.isSome || c.quietRun == 0 then
    { sent := true, quietEnter := false, resume := false, count := x.quietCount, quiet := x.quiet, tail := false }
  else suppress c.quietRun x (isQuietBlock c.quietFloor r)

/-! ### Emission (R143, R156, R157) -/

/-- R156: B(P), the blocks of a full DATA frame. -/
def blocksPerFrame (period : Nat) : Nat :=
  8946 / (12 + 6 * period)

/-- R156: the most frames of the egress data queue. -/
def dataQueueLimit : Nat := 1024

/-- R156: the open frame, at the tail of the queue. -/
def openFrame? (q : List DataFrame) : Option DataFrame :=
  match q.getLast? with
  | none => none
  | some f => if f.closed then none else some f

/-- A frame that holds its blocks, closed when it is full (R156). -/
def dataFrame (limit : Nat) (period : PeriodIndex) (blocks : List Block) : DataFrame :=
  { period := period, blocks := blocks, closed := decide (limit ≤ blocks.length) }

/-- R156, R157: the queue with a block in it; `none` when it cannot be taken. -/
def offerBlock (limit : Nat) (period : PeriodIndex) (q : List DataFrame) (b : Block) : Option (List DataFrame) :=
  match openFrame? q with
  | some f => some (q.dropLast ++ [dataFrame limit f.period (f.blocks ++ [b])])
  | none => if q.length < dataQueueLimit then some (q ++ [dataFrame limit period [b]]) else none

/-- R143, R157: one block more was dropped in the pass. -/
def State.countDropped (s : State) : State :=
  match s.pass with
  | none => s
  | some p => s.setPass (some { p with dropped := p.dropped + 1 })

/-- R143, R156, R157, R160: the render engine offers a block; with the link down it is taken and discarded. -/
def State.offer (s : State) (period : PeriodIndex) (b : Block) : State :=
  if s.port.linkUp then
    match offerBlock (blocksPerFrame s.config.period) period s.port.dataQueue b with
    | some q => s.setPort { s.port with dataQueue := q }
    | none => s.countDropped
  else s

/-! ### One voice of a pass (R122 to R128, R134 to R144) -/

/-- R128: the ring chunk that the block passes, if any. -/
def passedChunk? (period : Nat) (x : Voice) : Option Nat :=
  let chunk : Int := (x.emit + period) / 1024 - 1
  if x.emit / 1024 < (x.emit + period) / 1024 ∧ (x.headChunks : Int) ≤ chunk then some chunk.toNat else none

/-- R127, R133: the events of a block. -/
def State.raiseBlockEvents (s : State) (x : Voice) (period : PeriodIndex) (r : Rendered) : State :=
  let silent := if r.silent = 0 then s else s.raise (.dropout x.tag period r.silent)
  if r.clipped then silent.raise (.clip x.tag period) else silent

/-- R128: a passed chunk is handed to the fetch scheduler, and the record is noted for the refill check (R76). -/
def State.passRendered (s : State) (v : Nat) (x : Voice) : State :=
  match passedChunk? s.config.period x with
  | none => s
  | some k =>
    let freed := s.passChunk v x k
    match freed.pass with
    | none => freed
    | some p => freed.setPass (some { p with passed := p.passed ++ [v] })

/-- R124, R127, R133, R139: the record after the block: the emit position risen by P and the counts raised. -/
def advanceVoice (period : Nat) (x : Voice) (r : Rendered) (d : Disposition) : Voice :=
  { x with emit := x.emit + period, quietCount := d.count, quiet := d.quiet,
           dropouts := if r.silent = 0 then x.dropouts else saturate16 (x.dropouts + 1),
           clips := if r.clipped then saturate16 (x.clips + 1) else x.clips }

/-- R142: the block of a voice: `x` is the record before the block, `y` after `enterBlock`. -/
def blockOf (period : Nat) (x y : Voice) (r : Rendered) (ending : Option BlockEnding) (d : Disposition) : Block :=
  { tag := x.tag
    flags :=
      { first := x.state == .pending
        last := ending.isSome || d.tail
        late := x.state == .pending && x.late
        released := x.state != .releasing && y.state == .releasing
        dropout := r.silent != 0
        clipped := r.clipped
        quietEnter := d.quietEnter
        resume := d.resume }
    valid := match ending with
             | some b => b.valid
             | none => period
    position := x.emit
    frames := r.frames }

/-- R144: the voice ends after its last block, by the sample end or a ramp, or by its quiet tail. -/
def State.settleVoice (s : State) (v : Nat) (y : Voice) (ending : Option BlockEnding) (d : Disposition) : State :=
  match ending with
  | some b => s.endVoiceAt v b.reason b.position
  | none => if d.tail then s.endVoiceAt v .quietTail (y.emit + s.config.period) else s

/-- R122 to R144: one voice's block in the pass for period q. -/
def State.renderVoice (s : State) (q : PeriodIndex) (v : Nat) (x : Voice) (e : SampleEntry) : State :=
  let y := enterBlock s.config.period x e
  let r := s.renderFrames v y e
  let ending := blockEnding s.config.period y e
  let d := dispose s.config y r ending
  let told := (s.raiseBlockEvents x q r).passRendered v y
  let offered := if d.sent then told.offer q (blockOf s.config.period x y r ending d) else told
  (offered.putVoice v (advanceVoice s.config.period y r d)).settleVoice v y ending d

/-- R122: the voice takes part in the pass for period q. -/
def takesPart (q : PeriodIndex) (x : Voice) : Bool :=
  x.state != .pending || x.startPeriod == q

/-- R122: the record's turn in the pass. A non-FREE voice always has its sample entry (R17; log 24). -/
def State.renderRecord (s : State) (q : PeriodIndex) (v : Nat) : State :=
  match s.voice? v with
  | none => s
  | some x =>
    match s.entryOf? x with
    | none => s
    | some e => if takesPart q x then s.renderVoice q v x e else s

/-- R122: the record's turn is over, and the next is that of a higher index. -/
def State.passTurn (s : State) (v : Nat) : State :=
  match s.pass with
  | none => s
  | some p => s.setPass (some { p with next := v + 1 })

/-- R122: the turn of a record in the pass for period q. -/
def State.renderTurn (s : State) (q : PeriodIndex) (v : Nat) : State :=
  (s.renderRecord q v).passTurn v

/-- R122: records rendered one at a time, in the order listed. -/
def State.renderTurns (s : State) (q : PeriodIndex) (records : List Nat) : State :=
  records.foldl (fun s v => s.renderTurn q v) s

/-- R122: the records that have not had their turn yet, in ascending index. -/
def State.turnsLeft (s : State) (p : Pass) : List Nat :=
  (Table.keys s.voices).filter fun v => decide (p.next ≤ v)

/-- The first `n` of a list. -/
def firstOf {α : Type} (n : Nat) (l : List α) : List α :=
  (l.zipIdx.filter fun row => decide (row.2 < n)).map fun row => row.1

/-- R34, R106, R122: the render pass for period q begins: the staged matrices first, then the turns that the render
engine comes to within the step that opens the pass, a free value. The other turns follow one by one, or at the latest
with the completion; reads complete and frames are sent in the meantime (R127, R157; log 5). -/
def State.beginPass (s : State) (q : PeriodIndex) : State :=
  s.applyMatrices.renderTurns q (firstOf (Config.turnsAtOpening s.freeCount) (Table.keys s.voices))

end Sys2Proof.Machine
end

