-- ==== Sys2Proof/Machine/Layouts.lean ====
section
/-! DEFINITION. The messages the part sends, as 8.10 and R163 lay them out: the codes, the captures, the results of the
replies, and the payloads of DATA, VOICE_END, NOTICE and REPLY frames. -/

namespace Sys2Proof.Machine

/-! ### Codes (8.10) -/

/-- Sample state; EMPTY is 0. -/
def entryStateCode : EntryState → Nat
  | .priming => 1
  | .ready => 2
  | .faulted => 3
  | .retiring => 4

/-- Fault reason; none is 0. -/
def faultCode : Option FaultReason → Nat
  | none => 0
  | some .read => 1
  | some .check => 2

/-- PRIME_DONE result. -/
def primeCode : PrimeResult → Nat
  | .ready => 0
  | .read => 1
  | .check => 2

/-- Voice state; FREE is 0. -/
def voiceStateCode : VoiceState → Nat
  | .pending => 1
  | .playing => 2
  | .releasing => 3
  | .stopping => 4

/-- Ramp kind; NONE is 0. -/
def rampCode : Option Ramp → Nat
  | none => 0
  | some r =>
    match r.kind with
    | .release => 1
    | .stop => 2

/-- Quiet state. -/
def quietCode : QuietState → Nat
  | .audible => 0
  | .quiet => 1

/-- Slot state; EMPTY is 0. -/
def slotCode : SlotState → Nat
  | .queued => 1
  | .inFlight => 2
  | .full => 3
  | .lost => 4
  | .draining => 5

/-- Part mark; no such part is 0. -/
def markCode : Option PartMark → Nat
  | none => 0
  | some .waiting => 1
  | some .outstanding => 2
  | some .filled => 3
  | some .failed => 4

/-- Lane state. -/
def laneStateCode : LaneState → Nat
  | .ready => 0
  | .errored => 1
  | .offline => 2

/-- Cadence state. -/
def cadenceCode : CadenceState → Nat
  | .search => 0
  | .candidate => 1
  | .locked => 2
  | .holdover => 3
  | .lost => 4

/-- Lost action. -/
def lostActionCode : LostAction → Nat
  | .freeze => 0
  | .finish => 1

/-- Read failure cause. -/
def causeCode : ReadCause → Nat
  | .ecc => 1
  | .timeout => 2

/-- Configuration-memory status. -/
def memoryCode : MemoryStatus → Nat
  | .read => 0
  | .defaults => 1

/-- INGRESS_OVERFLOW queue. -/
def ingressCode : IngressQueue → Nat
  | .voiceRequests => 1
  | .management => 2
  | .pendingTicks => 3

/-- STREAM item type of an UNKNOWN_TAG. -/
def tagItemCode : TagItem → Nat
  | .release => 2
  | .stop => 3

/-- End reason. -/
def endReasonCode : EndReason → Nat
  | .endOfSample => 1
  | .released => 2
  | .stopped => 3
  | .stolen => 4
  | .quietTail => 5
  | .cancelled => 6
  | .cadence => 7
  | .noZone => 8
  | .notReady => 9
  | .sampleFaulted => 10
  | .laneOffline => 11
  | .voiceLimit => 12

/-- Reply status. -/
def statusCode : ReplyStatus → Nat
  | .ok => 0
  | .badKind => 1
  | .badLength => 2
  | .badField => 3
  | .badCurve => 4
  | .voicesActive => 5
  | .entryBusy => 6
  | .headRange => 7
  | .headOverlap => 8
  | .notFound => 9

/-! ### NOTICE and VOICE_END -/

/-- A word of 32 bits. -/
def word32 (w : BitVec 32) : List Byte := toBE 4 w.toNat

/-- The fields of a capture (8.10, NOTICE). -/
def captureFields : Capture → List Byte
  | .dropout tag period silent => word32 tag ++ word32 period ++ toBE 2 silent
  | .fetchLost tag lane chunk => word32 tag ++ toBE 1 (laneNumber lane) ++ toBE 4 chunk
  | .readError lane address cause => toBE 1 (laneNumber lane) ++ toBE 6 address ++ toBE 1 (causeCode cause)
  | .laneState lane old new => toBE 1 (laneNumber lane) ++ toBE 1 (laneStateCode old) ++ toBE 1 (laneStateCode new)
  | .lateStart tag requested actual => word32 tag ++ word32 requested ++ word32 actual
  | .lateRelease tag requested horizon => word32 tag ++ word32 requested ++ word32 horizon
  | .voiceStolen victim new => word32 victim ++ word32 new
  | .startRefused tag reason => word32 tag ++ toBE 1 (endReasonCode reason)
  | .tagInUse tag => word32 tag
  | .unknownTag tag item => word32 tag ++ toBE 1 (tagItemCode item)
  | .clip tag period => word32 tag ++ word32 period
  | .cadenceState old oldMarker new newMarker =>
    toBE 1 (cadenceCode old) ++ toBE 1 (boolCode oldMarker) ++ toBE 1 (cadenceCode new) ++ toBE 1 (boolCode newMarker)
  | .cadenceShift expected found => word32 expected ++ word32 found
  | .cadenceSevere expected => word32 expected
  | .egressOverrun period blocks => word32 period ++ toBE 2 blocks
  | .ingressOverflow queue => toBE 1 (ingressCode queue)
  | .endListOverflow tag => word32 tag
  | .primeDone handle result => toBE 4 handle ++ toBE 1 (primeCode result)
  | .linkState up => toBE 1 (boolCode up)
  | .foreignSource address => toBE 6 address.toNat

/-- The 12 bytes of a capture: its fields, then 0; all 0 after EVENT_SET (R185). -/
def captureBytes : Option Capture → List Byte
  | none => List.replicate 12 0
  | some c => (captureFields c ++ List.replicate 12 0).take 12

/-- An entry of a NOTICE (16 bytes). -/
def noticeEntryBytes (n : NoticeEntry) : List Byte :=
  toBE 1 n.kind.code ++ toBE 1 (boolCode n.capture.isSome) ++ toBE 2 n.count ++ captureBytes n.capture

/-- A record of a VOICE_END (13 bytes). -/
def endRecordBytes (e : EndRecord) : List Byte :=
  word32 e.tag ++ toBE 1 (endReasonCode e.reason) ++ toBE 4 e.frames ++ toBE 2 e.dropouts ++ toBE 2 e.clips

/-! ### DATA -/

/-- The flags word of a block (8.10, DATA). -/
def flagsWord (f : BlockFlags) : Nat :=
  boolCode f.first + 2 * boolCode f.last + 4 * boolCode f.late + 8 * boolCode f.released + 16 * boolCode f.dropout +
    32 * boolCode f.clipped + 64 * boolCode f.quietEnter + 128 * boolCode f.resume

/-- A block (12 + 6P bytes). -/
def blockBytes (b : Block) : List Byte :=
  word32 b.tag ++ toBE 2 (flagsWord b.flags) ++ toBE 2 b.valid ++ toBESigned 4 b.position ++
    b.frames.flatMap fun f => toBESigned 3 f.1 ++ toBESigned 3 f.2

/-- A message: the header (8.10) and the body. -/
def message (kind number items : Nat) (body : List Byte) : List Byte :=
  toBE 1 1 ++ toBE 1 kind ++ toBE 2 number ++ toBE 2 body.length ++ toBE 2 items ++ body

/-- The payload of a DATA frame (R156). -/
def dataPayload (f : DataFrame) : List Byte :=
  message 0x40 0 f.blocks.length (word32 f.period ++ toBE 2 f.blocks.length ++ f.blocks.flatMap blockBytes)

/-! ### REPLY (R163) -/

/-- The body of a REPLY. -/
def answerBytes (kind : Nat) (a : Answer) : List Byte :=
  toBE 1 (statusCode a.status) ++ toBE 1 kind ++ toBE 2 a.ordinal ++ toBE 4 a.detail ++ a.result

/-- The payload of a control frame (R159, R163): the request's own number in a REPLY, 0 in the others. -/
def controlPayload : ControlFrame → List Byte
  | .reply _ number kind answer => message 0x43 number 0 (answerBytes kind answer)
  | .notice entries => message 0x42 0 entries.length (entries.flatMap noticeEntryBytes)
  | .voiceEnd records => message 0x41 0 records.length (records.flatMap endRecordBytes)

/-- R163: an answer OK with a result. -/
def okWith (result : List Byte) : Answer :=
  { status := .ok, ordinal := 0, detail := 0, result := result }

/-- R163: an answer OK with no result. -/
def okAnswer : Answer := okWith []

/-- R163: a refusal with ordinal 0 and detail 0. -/
def refusal (status : ReplyStatus) : Answer :=
  { status := status, ordinal := 0, detail := 0, result := [] }

/-- R163: BAD_FIELD with the failing field's ordinal. -/
def badField (ordinal : Nat) : Answer :=
  { status := .badField, ordinal := ordinal, detail := 0, result := [] }

/-! ### Results (R163, R170 to R172) -/

/-- R170: QUERY_SAMPLE, 51 bytes; an EMPTY entry reports 0 in every field but the handle. -/
def sampleResult (h : Nat) (entry : Option SampleEntry) : List Byte :=
  match entry with
  | none => toBE 4 h ++ List.replicate 47 0
  | some e =>
    toBE 4 h ++ toBE 1 (entryStateCode e.state) ++ toBE 1 (faultCode e.fault) ++ toBE 1 (laneNumber e.lane) ++
    toBE 1 (formatCode e.format) ++ toBE 1 (orderCode e.order) ++ toBE 1 e.channels ++ toBE 1 e.stride ++
    toBE 1 (boolCode e.loop.isSome) ++ toBE 1 (boolCode e.check.isSome) ++ toBE 8 e.baseUnit ++ toBE 4 e.frames ++
    toBE 4 e.headFrames ++ toBE 4 e.pageBase ++ toBE 2 e.pageCount ++
    toBE 4 (match e.loop with
            | some l => l.start
            | none => 0) ++
    toBE 4 (match e.loop with
            | some l => l.stop
            | none => 0) ++
    toBE 4 (match e.check with
            | some c => c.toNat
            | none => 0) ++
    toBE 2 e.refCount ++ toBE 2 e.progress

/-- R171: the 19 bytes of a slot record. An EMPTY slot has no parts, no reads and no successor; the manual gives no
chunk and no deadline for it: free values, `n` the free-value counter (log 15). -/
def slotResult (n index : Nat) (slot : Option Slot) : List Byte :=
  match slot with
  | none =>
    List.replicate 7 0 ++ word32 (Config.emptySlotChunk n index) ++ word32 (Config.emptySlotDeadline n index) ++
      List.replicate 4 0
  | some x =>
    toBE 1 (slotCode x.state) ++ toBE 1 (boolCode x.retryUsed) ++ toBE 1 x.marks.length ++ toBE 1 x.outstanding ++
    toBE 1 (markCode x.marks[0]?) ++ toBE 1 (markCode x.marks[1]?) ++ toBE 1 (boolCode x.successor.isSome) ++
    toBE 4 x.chunk ++ word32 x.deadline ++ toBE 4 (x.successor.getD 0)

/-- R171: the source frame at the emit position by R65, or a while the emit position is negative. -/
def reportedSource (x : Voice) (e : Option SampleEntry) : Nat :=
  match e with
  | none => x.sourceOffset
  | some e => if x.emit < 0 then x.sourceOffset else sourceFrame x e x.emit.toNat

/-- R171: QUERY_VOICE, the 69 bytes of the voice record. -/
def voiceRecordResult (v : Nat) (x : Voice) (e : Option SampleEntry) : List Byte :=
  toBE 2 v ++ toBE 1 (voiceStateCode x.state) ++ toBE 1 (quietCode x.quiet) ++ toBE 1 (rampCode x.ramp) ++
  toBE 1 (boolCode x.late) ++ toBE 1 (boolCode x.loopInEffect) ++ toBE 1 (boolCode x.releasePoint.isSome) ++
  word32 x.tag ++ word32 x.startOrder ++ toBE 4 x.handle ++ toBE 2 x.zone ++ toBE 1 x.matrix ++ toBE 2 x.gain ++
  toBE 4 x.releaseLength ++ word32 x.startPeriod ++ toBE 2 x.offset ++ toBE 4 x.sourceOffset ++ toBE 1 x.headChunks ++
  toBESigned 4 x.emit ++ toBE 4 (reportedSource x e) ++ toBESigned 4 (x.releasePoint.getD 0) ++
  (match x.ramp with
   | none => List.replicate 10 0
   | some r => toBESigned 4 r.start ++ toBE 2 r.level ++ toBE 4 r.length) ++
  toBE 2 (rampLevel x.ramp x.emit) ++ toBE 1 x.quietCount ++ toBE 2 x.dropouts ++ toBE 2 x.clips

/-- R171: QUERY_VOICE, 221 bytes: the voice record and its eight slot records. -/
def State.voiceResult (s : State) (v : Nat) (x : Voice) : List Byte :=
  voiceRecordResult v x (s.entryOf? x) ++
    (List.range ringSlots).flatMap fun j => slotResult s.freeCount (slotIndex v j) (s.slot? v j)

/-- The 25 bytes of a configuration, in CONFIGURE order. -/
def configBytes (c : Configuration) : List Byte :=
  toBE 4 c.sampleRate ++ toBE 2 c.period ++ toBE 1 c.lead ++ toBE 2 c.voiceLimit ++ toBE 1 c.lowWater ++
  toBE 4 c.quietFloor ++ toBE 1 c.quietRun ++ toBE 1 c.readTimeout ++ toBE 2 c.laneThreshold ++ toBE 2 c.tolerance ++
  toBE 1 c.errorWindow ++ toBE 1 c.errorLimit ++ toBE 1 c.missedLimit ++ toBE 1 (lostActionCode c.lostAction) ++
  toBE 1 (boolCode c.autoRelock)

/-- R172: the 6 bytes of a lane. -/
def laneBytes (x : Lane) : List Byte :=
  toBE 1 (laneStateCode x.state) ++ toBE 1 x.readsOutstanding ++ toBE 2 x.queue.length ++ toBE 2 x.errors

/-- An optional period index: its value, 0 where absent (R172). -/
def optionalIndex (i : Option PeriodIndex) : List Byte :=
  word32 (i.getD 0)

/-- R172: the bytes of one part of a QUERY_STATUS result, as its owner holds them. -/
def State.statusPart (s : State) : StatusPart → List Byte
  | .tracker =>
    toBE 1 (cadenceCode s.cadence.state) ++ toBE 1 (boolCode s.cadence.misaligned) ++
    toBE 1 (boolCode s.cadence.lastTick.isSome) ++ toBE 1 (boolCode s.cadence.horizon.isSome) ++
    optionalIndex s.cadence.lastTick ++ optionalIndex s.cadence.horizon
  | .voices => toBE 2 s.voices.length
  | .port => toBE 1 (memoryCode s.port.memoryStatus) ++ toBE 2 s.port.malformed
  | .lane l => laneBytes (s.lane l)
  | .configuration => configBytes s.config

/-- R172: the parts of a QUERY_STATUS result, 66 bytes, in the order of its layout. -/
def statusParts : List StatusPart :=
  [.tracker, .voices, .port, .lane .lane0, .lane .lane1, .lane .lane2, .lane .lane3, .configuration]

/-! ### STREAM items, as the driver lays them out (8.10) -/

/-- The bytes of a STREAM item: type, length and fields. -/
def itemBytes : StreamItem → List Byte
  | .voice (.start tag articulation note velocity period offset source) =>
    toBE 1 1 ++ toBE 1 20 ++ word32 tag ++ toBE 2 articulation ++ toBE 1 note ++ toBE 1 velocity ++ word32 period ++
      toBE 2 offset ++ toBE 4 source
  | .voice (.release tag period offset) => toBE 1 2 ++ toBE 1 12 ++ word32 tag ++ word32 period ++ toBE 2 offset
  | .voice (.stop tag) => toBE 1 3 ++ toBE 1 6 ++ word32 tag
  | .voice .stopAll => toBE 1 4 ++ toBE 1 2
  | .tick index => toBE 1 5 ++ toBE 1 6 ++ word32 index

/-- The fields of an item fit the bytes that its layout gives them. -/
def itemFits : StreamItem → Prop
  | .voice (.start _ articulation note velocity _ offset source) =>
    articulation < 65536 ∧ note < 256 ∧ velocity < 256 ∧ offset < 65536 ∧ source < 4294967296
  | .voice (.release _ _ offset) => offset < 65536
  | .voice (.stop _) => True
  | .voice .stopAll => True
  | .tick _ => True

end Sys2Proof.Machine
end

