-- ==== Sys2Proof/Machine/Status.lean ====
section
/-! DEFINITION. Answering a management request (R155, R163, R164), and the reading of a QUERY_STATUS's fields, owner by
owner and lane by lane (R172). -/

namespace Sys2Proof.Machine

/-- R155, R164: the REPLY fills the reserved place, and the unit is IDLE again. -/
def State.reply (s : State) (r : Request) (a : Answer) : State :=
  s.setReport { s.report with control := s.report.control ++ [.reply r.source r.number r.kind a], busy := none }

/-! ### The reading of a QUERY_STATUS (R172) -/

/-- R172: the next `n` parts of a QUERY_STATUS are read, each as its owner stands now; the REPLY is filled when every
field has been read (R165), and until then the unit is BUSY. -/
def State.readOn (s : State) (r : Request) (g : StatusReading) (n : Nat) : State :=
  let told := g.told ++ (g.left.take n).flatMap s.statusPart
  match g.left.drop n with
  | [] => (s.setReport { s.report with reading := none }).reply r (okWith told)
  | p :: rest => s.setReport { s.report with reading := some { told := told, left := p :: rest } }

/-- The QUERY_STATUS whose fields are being read, and how far the reading is. -/
def Report.reading? (r : Report) : Option (Request × StatusReading) :=
  match r.busy, r.reading with
  | some q, some g => some (q, g)
  | _, _ => none

/-- R172: the fields of a QUERY_STATUS still to be read are read now. -/
def State.readOut (s : State) : State :=
  match s.report.reading? with
  | none => s
  | some (r, g) => s.readOn r g g.left.length

/-- R172: fields are read between passes: what opens a pass comes after the fields still to be read (log 34). -/
def State.readBefore (s : State) (take : State → State) : State :=
  if (take s).passUnderWay then take s.readOut else take s

end Sys2Proof.Machine
end

