-- ==== Sys2Proof/Machine/Cadence.lean ====
section
/-! DEFINITION. The cadence tracker (chapter 6): arrival windows, finding a lock, running locked, holdover, loss, the
error windows, and the opening of passes. -/

namespace Sys2Proof.Machine

/-! ### Reading the tracker -/

/-- The parameters the tracker runs under: those in force, or the ones before a CONFIGURE whose tracker part still
waits for a pass (R168: the cadence parameters take effect from the tracker's reset on). -/
def State.trackerConfig (s : State) : Configuration :=
  match s.cadence.heldConfig with
  | some c => c
  | none => s.config

/-- R103: the expected index, render horizon - L. -/
def expectedIndex (horizon : PeriodIndex) (lead : Nat) : PeriodIndex :=
  horizon - BitVec.ofNat 32 lead

/-- R104: within the arrival window: P - J ≤ e ≤ P + J for the elapsed time e. -/
def inWindow (c : Configuration) (arrival since : Nat) : Bool :=
  decide ((c.period : Int) - c.tolerance ≤ (arrival : Int) - since) &&
    decide ((arrival : Int) - since ≤ (c.period : Int) + c.tolerance)

/-- The tracker is LOCKED or HOLDOVER. -/
def CadenceState.running (c : CadenceState) : Bool :=
  c == .locked || c == .holdover

/-- Ticks on the waiting list (R105). -/
def waitingTicks (w : List Waiting) : Nat :=
  (w.filter fun i => match i with
                     | .tick _ _ => true
                     | .expiry _ => false).length

/-- The most ticks of the waiting list (R105). -/
def waitingLimit : Nat := 16

/-- R105: a waiting timer expiry is discarded when the timer is re-armed or stopped before it is taken. -/
def dropExpiry (w : List Waiting) : List Waiting :=
  w.filter fun i => match i with
                    | .tick _ _ => true
                    | .expiry _ => false

/-! ### Changes of the tracker -/

/-- CADENCE_STATE is raised with the old and the new state, each with its marker (R120). -/
def State.raiseCadence (s : State) (old : Cadence) : State :=
  s.raise (.cadenceState old.state old.misaligned s.cadence.state s.cadence.misaligned)

/-- The local period timer armed to an expiry time (R112). -/
def Cadence.arm (c : Cadence) (expiry : Nat) : Cadence :=
  { c with timer := some expiry, waiting := dropExpiry c.waiting }

/-- The local period timer stopped (R112). -/
def Cadence.stopTimer (c : Cadence) : Cadence :=
  { c with timer := none, waiting := dropExpiry c.waiting }

/-- Both windows begin with 0 openings and 0 errors, or stop there (R108, R114, R116, R118). -/
def Cadence.clearWindows (c : Cadence) : Cadence :=
  { c with errorOpenings := 0, errorCount := 0, severeOpenings := 0, severeCount := 0, severeRaised := false,
           limitDue := false }

/-- R116, R118: an opening is counted in each window; a window that has its openings ends and the next begins. -/
def Cadence.countOpening (c : Cadence) (errorWindow : Nat) : Cadence :=
  let error := if errorWindow ≤ c.errorOpenings + 1 then { c with errorOpenings := 0, errorCount := 0 }
               else { c with errorOpenings := c.errorOpenings + 1 }
  if 8 ≤ c.severeOpenings + 1 then { error with severeOpenings := 0, severeCount := 0, severeRaised := false }
  else { error with severeOpenings := c.severeOpenings + 1 }

/-- R116: a tick error in the error window; reaching M makes the tracker act once the event has been taken whole. -/
def Cadence.countError (c : Cadence) (errorLimit : Nat) : Cadence :=
  { c with errorCount := saturate16 (c.errorCount + 1),
           limitDue := c.limitDue || (c.errorCount + 1 == errorLimit) }

/-- R118: a tick error in the severe window. -/
def Cadence.countSevere (c : Cadence) : Cadence :=
  { c with severeCount := saturate16 (c.severeCount + 1),
           severeRaised := c.severeRaised || (c.severeCount + 1 == 2) }

/-- R116, R118: a tick error is counted, and a second one in a severe window raises CADENCE_SEVERE once. -/
def State.tickError (s : State) : State :=
  let c := (s.cadence.countError s.trackerConfig.errorLimit).countSevere
  let counted := s.setCadence c
  match s.cadence.horizon with
  | none => counted
  | some q =>
    if c.severeRaised && !s.cadence.severeRaised then
      counted.raise (.cadenceSevere (expectedIndex q s.trackerConfig.lead))
    else counted

/-- R106: a pass is opened for the render horizon: the opening time, the windows, and the timer armed `wait` frames
after the opening. The rendering begins when the tracker has been taken whole (log 17). -/
def State.openPass (s : State) (q : PeriodIndex) (wait : Nat) : State :=
  let c := s.cadence.countOpening s.trackerConfig.errorWindow
  (s.setCadence ({ c with lastOpening := c.clock }.arm (c.clock + wait))).setPass
    (some { period := q, dropped := 0, passed := [], next := 0 })

/-- The time of the timer in LOCKED: P + J after the opening (R112). -/
def lockedWait (c : Configuration) : Nat :=
  c.period + c.tolerance

/-! ### Finding a lock (R107 to R110) -/

/-- R107, R115: in SEARCH or LOST a tick becomes the candidate. -/
def State.becomeCandidate (s : State) (n : PeriodIndex) (arrival : Nat) : State :=
  (s.setCadence { s.cadence with state := .candidate, candidate := some { index := n, arrival := arrival } }).raiseCadence
    s.cadence

/-- R109, and R110 for a shift: the render horizon becomes n + L. -/
def lockHorizon (n : PeriodIndex) (lead : Nat) : PeriodIndex :=
  n + BitVec.ofNat 32 lead

/-- The state set to LOCKED by a lock, with the windows afresh (R108). -/
def State.enterLocked (s : State) : State :=
  (s.setCadence
    { s.cadence.clearWindows with state := .locked, misaligned := false, candidate := none, missed := 0 }).raiseCadence
    s.cadence

/-- R109: a first lock. -/
def State.firstLock (s : State) (n : PeriodIndex) : State :=
  let q := lockHorizon n s.trackerConfig.lead
  ((s.setCadence { s.cadence with horizon := some q }).judgeAllLate q).openPass q (lockedWait s.trackerConfig)

/-- R110: a relock at another index than the one expected. -/
def State.shiftLock (s : State) (n q : PeriodIndex) : State :=
  let shifted := (s.raise (.cadenceShift (expectedIndex q s.trackerConfig.lead) n)).endAllVoices
  let r := lockHorizon n s.trackerConfig.lead
  (shifted.setCadence { shifted.cadence with horizon := some r }).openPass r (lockedWait s.trackerConfig)

/-- R108: the tick completes a lock. -/
def State.lock (s : State) (n : PeriodIndex) : State :=
  let locked := s.enterLocked
  match s.cadence.horizon with
  | none => locked.firstLock n
  | some q =>
    if n = expectedIndex q s.trackerConfig.lead then locked.openPass q (lockedWait s.trackerConfig)
    else locked.shiftLock n q

/-- R108: a tick in CANDIDATE. -/
def State.judgeCandidate (s : State) (n : PeriodIndex) (arrival : Nat) : State :=
  match s.cadence.candidate with
  | none => s.setCadence { s.cadence with candidate := some { index := n, arrival := arrival } }
  | some c =>
    if n = c.index + 1 ∧ inWindow s.trackerConfig arrival c.arrival then s.lock n
    else s.setCadence { s.cadence with candidate := some { index := n, arrival := arrival } }

/-! ### Running locked (R111, R113) -/

/-- R113: the expected tick in HOLDOVER returns the tracker to LOCKED. -/
def State.returnToLocked (s : State) : State :=
  if s.cadence.state = .holdover then
    (s.setCadence { s.cadence with state := .locked, missed := 0 }).raiseCadence s.cadence
  else s.setCadence { s.cadence with missed := 0 }

/-- R111, R113: the expected tick, GOOD within the arrival window and EARLY outside it. -/
def State.expectedTick (s : State) (q : PeriodIndex) (arrival : Nat) : State :=
  let judged := if inWindow s.trackerConfig arrival s.cadence.lastOpening then s else s.tickError
  judged.returnToLocked.openPass q (lockedWait s.trackerConfig)

/-- R111, R113: a tick of another index: BEHIND and AHEAD are tick errors; an index 2^31 away is neither (log 16). -/
def State.otherTick (s : State) (n expected : PeriodIndex) : State :=
  if isBefore n expected || isBefore expected n then s.tickError
  else if Config.antipodalTickIsError n then s.tickError else s

/-- R111, R113: a tick in LOCKED or HOLDOVER. -/
def State.judgeRunning (s : State) (n : PeriodIndex) (arrival : Nat) : State :=
  match s.cadence.horizon with
  | none => s
  | some q =>
    if n = expectedIndex q s.trackerConfig.lead then s.expectedTick q arrival
    else s.otherTick n (expectedIndex q s.trackerConfig.lead)

/-- R105: a tick is taken: the last tick index is set, and the tick judged by the cadence state. -/
def State.judgeTick (s : State) (n : PeriodIndex) (arrival : Nat) : State :=
  let t := s.setCadence { s.cadence with lastTick := some n }
  match s.cadence.state with
  | .search => t.becomeCandidate n arrival
  | .lost => t.becomeCandidate n arrival
  | .candidate => t.judgeCandidate n arrival
  | .locked => t.judgeRunning n arrival
  | .holdover => t.judgeRunning n arrival

/-! ### Missed ticks and loss (R112 to R115) -/

/-- R114: the tracker enters LOST, and applies the lost action (R115). -/
def State.enterLost (s : State) : State :=
  let lost := (s.setCadence
    { s.cadence.stopTimer.clearWindows with state := .lost, misaligned := false, missed := 0 }).raiseCadence s.cadence
  match s.trackerConfig.lostAction with
  | .freeze => lost
  | .finish => lost.endAllVoices

/-- R112, R113: a missed tick below K is covered by a pass of the tracker's own. -/
def State.coverMissed (s : State) (q : PeriodIndex) : State :=
  let counted := (s.setCadence { s.cadence with missed := s.cadence.missed + 1 }).tickError
  let held := if s.cadence.state = .locked then
      (counted.setCadence { counted.cadence with state := .holdover }).raiseCadence counted.cadence
    else counted
  held.openPass q s.trackerConfig.period

/-- R112 to R114: a timer expiry is taken. -/
def State.judgeExpiry (s : State) : State :=
  match s.cadence.state, s.cadence.horizon with
  | .locked, some q => if s.cadence.missed + 1 < s.trackerConfig.missedLimit then s.coverMissed q else s.enterLost
  | .holdover, some q => if s.cadence.missed + 1 < s.trackerConfig.missedLimit then s.coverMissed q else s.enterLost
  | _, _ => s

/-! ### The error limit (R116, R117) -/

/-- R116: with automatic relock on, the tracker enters SEARCH; the waiting list is kept. -/
def State.searchAgain (s : State) : State :=
  (s.setCadence { s.cadence.stopTimer.clearWindows with state := .search, misaligned := false, missed := 0 }).raiseCadence
    s.cadence

/-- R117: with automatic relock off, the misaligned marker is set. -/
def State.markMisaligned (s : State) : State :=
  if s.cadence.misaligned then s.setCadence { s.cadence with limitDue := false }
  else (s.setCadence { s.cadence with misaligned := true, limitDue := false }).raiseCadence s.cadence

/-- R116: the action on reaching M. -/
def State.limitAction (s : State) : State :=
  if s.trackerConfig.autoRelock then s.searchAgain else s.markMisaligned

/-- R116: the action where it is due. -/
def State.actOnLimit (s : State) : State :=
  if s.cadence.limitDue then s.limitAction else s

/-! ### Taking events (R105, R106) -/

/-- After an event has been taken: the pass it opened begins, or, with none opened, the error limit is acted on
at once (R116: after the event has been taken whole and any pass it opened has completed). -/
def State.afterEvent (s : State) : State :=
  match s.pass with
  | some p => s.beginPass p.period
  | none => s.actOnLimit

/-- R105: an item of the waiting list is taken. -/
def State.takeWaiting (s : State) : Waiting → State
  | .tick n arrival => (s.judgeTick n arrival).afterEvent
  | .expiry _ => s.judgeExpiry.afterEvent

/-- R105: the waiting list is taken from its head until a pass is under way, at most `n` items. -/
def State.takeAllWaiting : Nat → State → State
  | 0, s => s
  | n + 1, s =>
    if s.passUnderWay then s
    else
      match s.cadence.waiting with
      | [] => s
      | i :: rest => State.takeAllWaiting n ((s.setCadence { s.cadence with waiting := rest }).takeWaiting i)

/-- The local clock some frames later (R104), but not past the expiry time of a running timer: the expiry is then the next
thing that happens (log 3). -/
def Cadence.later (c : Cadence) (frames : Nat) : Nat :=
  match c.timer with
  | none => c.clock + frames
  | some expiry => max c.clock (min (c.clock + frames) expiry)

/-- Some frames of the local clock pass. -/
def State.passTime (s : State) (frames : Nat) : State :=
  s.setCadence { s.cadence with clock := s.cadence.later frames }

/-- R105: a tick that reaches the tracker while a pass is under way: it joins the waiting list, or is dropped when the
list holds 16 ticks and counted as a tick error in LOCKED or HOLDOVER. -/
def State.holdTick (s : State) (n : PeriodIndex) (arrival : Nat) : State :=
  if waitingTicks s.cadence.waiting < waitingLimit then
    s.setCadence { s.cadence with waiting := s.cadence.waiting ++ [.tick n arrival] }
  else if s.cadence.state.running then s.tickError else s

/-- The running timer expires before a tick with this arrival time is taken: at P + J in LOCKED either may be first
(R112), at P in HOLDOVER the expiry is (R113). -/
def Cadence.expiresBefore (c : Cadence) (arrival : Nat) : Bool :=
  match c.timer with
  | none => false
  | some expiry => decide (expiry < arrival) || (decide (expiry = arrival) && c.state == .holdover)

/-- TICK (R105): the tracker takes the tick that the link port handed on first, or puts it on the waiting list. It waits
for a timer expiry that comes before it (R111 to R113; log 1). The pass it opens comes after the fields of a QUERY_STATUS
still to be read (R172). -/
def execTick (elapsed : Nat) (s : State) : Host.Outcome State Fault Refusal :=
  match s.port.handed with
  | [] => .next s
  | n :: rest =>
    if s.cadence.expiresBefore n.arrival then .next s
    else
      let t := (s.passTime elapsed).setPort { s.port with handed := rest }
      if t.passUnderWay then .next (t.holdTick n.index n.arrival)
      else .next (t.readBefore fun u => (u.judgeTick n.index n.arrival).afterEvent).dispatch

/-- R112: the timer has expired at its expiry time, and is not armed again until a pass is opened. -/
def State.expireTimer (s : State) (expiry : Nat) : State :=
  s.setCadence { s.cadence with timer := none, clock := max s.cadence.clock expiry }

/-- A tick that reached the tracker before this time is still to be taken (R105). -/
def Port.tickBefore (p : Port) (time : Nat) : Bool :=
  p.handed.any fun n => decide (n.arrival < time)

/-- LOCAL_PERIOD_TIMER_EXPIRY (R112): a stopped timer does not expire, and a tick that came before the expiry is taken
first (R105; log 1); during a pass the expiry waits (R105). The pass it opens comes after the fields of a QUERY_STATUS
still to be read (R172). -/
def execLocalPeriodTimerExpiry (s : State) : Host.Outcome State Fault Refusal :=
  match s.cadence.timer with
  | none => .next s
  | some expiry =>
    if s.port.tickBefore expiry then .next s
    else
      let t := s.expireTimer expiry
      if t.passUnderWay then
        .next (t.setCadence { t.cadence with waiting := t.cadence.waiting ++ [.expiry expiry] })
      else .next (t.readBefore fun u => u.judgeExpiry.afterEvent).dispatch

/-! ### RESYNC and resets (R119, R121) -/

/-- R119: the tracker is forced into SEARCH; the render horizon is kept. A tick handed on and not yet taken is kept (log
4). -/
def State.forceSearch (s : State) : State :=
  if s.cadence.state = .search then s
  else
    (s.setCadence
      { s.cadence.clearWindows with state := .search, misaligned := false, candidate := none, timer := none,
                                    missed := 0, waiting := [] }).raiseCadence s.cadence

/-- R121: the tracker after a soft reset or an accepted CONFIGURE. The local clock and the last opening time, which R121
does not list, are kept (log 7). -/
def Cadence.resetTracker (c : Cadence) : Cadence :=
  { c.clearWindows with state := .search, misaligned := false, candidate := none, lastTick := none, horizon := none,
                        timer := none, missed := 0, waiting := [], heldConfig := none }

end Sys2Proof.Machine
end

