-- ==== Sys2Proof/Machine/Ops.lean ====
section
/-! DEFINITION. The operations that several commands share: sending a frame, taking a management request (R154,
R155, R159, R164, R166), the list of end records given a freed place, and the soft reset (R174). -/

namespace Sys2Proof.Machine

/-! ### The wire (R148, R159) -/

/-- R148, R159: every frame the part sends carries the station address and the adopted EtherType. -/
def Port.send (p : Port) (destination : Option StationAddress) (payload : List Byte) : Port :=
  { p with wire := some { destination := destination, source := p.station, etherType := p.etherType,
                          payload := payload } }

/-- R159: a REPLY goes to the source of its request, every other frame to the session partner. -/
def Port.destinationOf (p : Port) : ControlFrame → Option StationAddress
  | .reply destination _ _ _ => some destination
  | .notice _ => p.partner
  | .voiceEnd _ => p.partner

/-! ### Taking a management request -/

/-- R154, R155, R164: the unit is IDLE and the control queue grants it a place: one is free, and neither a held
NOTICE nor 64 end records have the claim on it (log 20). -/
def Report.grants (r : Report) : Bool :=
  r.busy.isNone && !r.noticeHeld && decide (r.endList.length < endFrameRecords) && decide (0 < r.freePlaces)

/-- The request at the head of the management queue, when it satisfies `fits` and the unit may take it. -/
def State.request? (s : State) (fits : Request → Bool) : Option Request :=
  match s.port.mgmtQueue with
  | [] => none
  | r :: _ => if s.report.grants && fits r then some r else none

/-- An unmarked request of a kind (R165). -/
def isRequest (kind : Nat) (r : Request) : Bool :=
  r.mark == .unmarked && r.kind == kind

/-- R164: the request leaves the queue, its reply's place is reserved, and the unit is BUSY with it. -/
def State.beginRequest (s : State) (r : Request) : State :=
  (s.setPort { s.port with mgmtQueue := s.port.mgmtQueue.tail }).setReport { s.report with busy := some r }

/-- R164, R165: a management command: the request it takes is carried out; with none to take it waits (log 1). -/
def State.serve (s : State) (fits : Request → Bool) (carryOut : Request → State → State) :
    Host.Outcome State Fault Refusal :=
  match s.request? fits with
  | none => .next s
  | some r => .next (carryOut r (s.beginRequest r))

/-! ### The soft reset (R174) -/

/-- R186: the events of the listed kinds cleared, their masks kept. -/
def Report.clearEvents : List EventKind → Report → Report
  | [], r => r
  | k :: rest, r => Report.clearEvents rest (r.putEvent k (r.event k).clear)

/-- R186: every event cleared with its mask kept, and a held NOTICE released; R162: the end list emptied, the control
queue and the reservation kept. -/
def Report.softReset (r : Report) : Report :=
  { r with events := (Report.clearEvents EventKind.all r).events, noticeHeld := false, endList := [] }

/-- R162: the voice request queue, the pending-tick list and the egress data queue emptied; a tick handed on is
cleared with the tracker's state (R175). -/
def Port.softReset (p : Port) : Port :=
  { p with voiceQueue := [], pendingTicks := [], handed := [], dataQueue := [] }

/-- R174: the soft reset, in every block as one step (R20, R36, R61, R85, R102, R121, R162, R186). -/
def State.softReset (s : State) : State :=
  let tables := (s.setSamples (resetEntries s.library.samples)).applyMatrices
  let freed := ((tables.setVoices []).setNextOrder 0).setSlots (resetSlots s.slots)
  let lanes := freed.setLanes (PerLane.map freed.lanes freed.resetLane)
  ((lanes.setCadence lanes.cadence.resetTracker).setPort lanes.port.softReset).setReport lanes.report.softReset

end Sys2Proof.Machine
end

