-- ==== Sys2Proof/Machine/Management.lean ====
section
/-! DEFINITION. The management requests (chapter 9, with the loads of chapters 1 and 2 and the event requests of
chapter 10): each command takes the request at the head of the management queue and answers it. -/

namespace Sys2Proof.Machine

/-! ### BAD_REQUEST_REPLY (R166) -/

/-- The status of a header mark (R166). -/
def markStatus : HeaderMark → ReplyStatus
  | .unmarked => .ok
  | .badKind => .badKind
  | .badLength => .badLength

/-- A marked request. -/
def isMarked (r : Request) : Bool :=
  r.mark != .unmarked

/-- BAD_REQUEST_REPLY (R166). -/
def execBadRequestReply (s : State) : Host.Outcome State Fault Refusal :=
  s.serve isMarked fun r t => t.reply r (refusal (markStatus r.mark))

/-! ### LOAD_SAMPLE (R3 to R6) -/

/-- R4: the head length that a request gets. -/
def loadHead (b : List Byte) : Nat :=
  clampHead (loadFrames b) (loadRequestedHead b)

/-- R5: the head page count that a request gets. -/
def loadPages (b : List Byte) : Nat :=
  headPages (loadHead b) (loadStride b)

/-- R5: the page run's refusal, if any. -/
def State.runRefusal? (s : State) (b : List Byte) : Option Answer :=
  if loadHead b = 0 then none
  else if pageLimit < loadPageBase b + loadPages b then some (refusal .headRange)
  else
    (s.overlapping? (loadPageBase b) (loadPages b)).map fun h => { refusal .headOverlap with detail := h }

/-- R3: the refusal of a LOAD_SAMPLE, if any. -/
def State.loadRefusal? (s : State) (b : List Byte) : Option Answer :=
  if handleCount ≤ loadHandle b then some (badField 1)
  else if (s.entry? (loadHandle b)).isSome then some (refusal .entryBusy)
  else
    match firstFailure (loadChecks b) with
    | some ordinal => some (badField ordinal)
    | none => s.runRefusal? b

/-- The check value of the request, when present. -/
def loadCheck (b : List Byte) : Option (BitVec 32) :=
  if loadCheckPresent b = 1 then some (BitVec.ofNat 32 (loadCheckValue b)) else none

/-- R6: with H = 0 the head check is of zero bytes. -/
def emptyHeadMatches (check : Option (BitVec 32)) : Bool :=
  match check with
  | none => true
  | some c => crc32 [] == c

/-- R6: the entry of an accepted load. -/
def loadEntry (b : List Byte) : SampleEntry :=
  { state := if loadHead b ≠ 0 then .priming else if emptyHeadMatches (loadCheck b) then .ready else .faulted
    lane := laneOfNumber (loadLane b)
    baseUnit := loadBaseUnit b
    frames := loadFrames b
    channels := loadChannels b
    format := formatOfCode (loadFormatCode b)
    order := orderOfCode (loadOrderCode b)
    stride := loadStride b
    headFrames := loadHead b
    pageBase := if loadHead b = 0 then 0 else loadPageBase b
    pageCount := if loadHead b = 0 then 0 else loadPages b
    loop := if loadLoopPresent b = 1 then some { start := loadLoopStart b, stop := loadLoopStop b } else none
    check := loadCheck b
    refCount := 0
    progress := 0
    fault := if loadHead b = 0 ∧ emptyHeadMatches (loadCheck b) = false then some .check else none }

/-- R6: the entry is written, and with H > 0 its handle joins the priming list of its lane. -/
def State.storeLoad (s : State) (h : Nat) (e : SampleEntry) : State :=
  if e.headFrames = 0 then s.putEntry h e else (s.putEntry h e).joinPriming e.lane h

/-- R6: with H = 0 the outcome of priming is told at once. -/
def State.announceLoad (s : State) (h : Nat) (e : SampleEntry) : State :=
  match e.state with
  | .ready => s.raise (.primeDone h .ready)
  | .faulted => s.raise (.primeDone h .check)
  | .priming => s
  | .retiring => s

/-- R6, R163: the result of an accepted load: H and the head page count. -/
def loadResult (e : SampleEntry) : List Byte :=
  toBE 4 e.headFrames ++ toBE 2 e.pageCount

/-- R3 to R6: a LOAD_SAMPLE is carried out; the reply is handed over before PRIME_DONE is raised (R6). -/
def State.loadSample (s : State) (r : Request) : State :=
  match s.loadRefusal? r.body with
  | some a => s.reply r a
  | none =>
    let h := loadHandle r.body
    let e := loadEntry r.body
    (((s.storeLoad h e).reply r (okWith (loadResult e))).announceLoad h e).dispatch

/-- LOAD_SAMPLE (R3). -/
def execLoadSample (s : State) : Host.Outcome State Fault Refusal :=
  s.serve (isRequest kindLoadSample) fun r t => t.loadSample r

/-! ### RETIRE_SAMPLE and QUERY_SAMPLE (R16, R170) -/

/-- The handle of a request. -/
def handleOf (b : List Byte) : Nat := field b 0 4

/-- R16: an entry is retired. -/
def State.retireEntry (s : State) (h : Nat) (e : SampleEntry) : State :=
  match e.state with
  | .priming => ((s.discardReads e.lane h).leavePriming e.lane h).clearEntry h
  | .ready => if e.refCount = 0 then s.clearEntry h else s.putEntry h { e with state := .retiring }
  | .faulted => s.clearEntry h
  | .retiring => s

/-- The code of an entry's state; EMPTY is 0 (8.10, Codes). -/
def stateCodeOf (entry : Option SampleEntry) : Nat :=
  match entry with
  | none => 0
  | some e => entryStateCode e.state

/-- R16: a RETIRE_SAMPLE is carried out; the reply reports the resulting state. -/
def State.retireSample (s : State) (r : Request) : State :=
  let h := handleOf r.body
  if handleCount ≤ h then s.reply r (badField 1)
  else
    match s.entry? h with
    | none => s.reply r (refusal .notFound)
    | some e =>
      let retired := s.retireEntry h e
      (retired.reply r (okWith (toBE 1 (stateCodeOf (retired.entry? h))))).dispatch

/-- RETIRE_SAMPLE (R16). -/
def execRetireSample (s : State) : Host.Outcome State Fault Refusal :=
  s.serve (isRequest kindRetireSample) fun r t => t.retireSample r

/-- R170: the answer to a QUERY_SAMPLE. -/
def State.sampleAnswer (s : State) (b : List Byte) : Answer :=
  if handleCount ≤ handleOf b then badField 1 else okWith (sampleResult (handleOf b) (s.entry? (handleOf b)))

/-- QUERY_SAMPLE (R170). -/
def execQuerySample (s : State) : Host.Outcome State Fault Refusal :=
  s.serve (isRequest kindQuerySample) fun r t => t.reply r (t.sampleAnswer r.body)

/-! ### Loads of the articulation tables (R22, R24, R25, R29, R33) -/

/-- R22: the record that a LOAD_ARTICULATION writes. -/
def loadedArticulation (b : List Byte) : Articulation :=
  { firstZone := artFirstZone b, zoneCount := artZoneCount b, roundRobinCount := artRoundRobin b, cursor := 0,
    releaseLength := artReleaseLength b }

/-- R22: a LOAD_ARTICULATION is carried out. -/
def State.loadArticulation (s : State) (r : Request) : State :=
  match firstFailure (articulationChecks r.body) with
  | some ordinal => s.reply r (badField ordinal)
  | none => (s.putArticulation (artIndex r.body) (loadedArticulation r.body)).reply r okAnswer

/-- LOAD_ARTICULATION (R22). -/
def execLoadArticulation (s : State) : Host.Outcome State Fault Refusal :=
  s.serve (isRequest kindLoadArticulation) fun r t => t.loadArticulation r

/-- One zone record written (R25). -/
def State.putZone (s : State) (i : Nat) (z : Zone) : State :=
  s.setLibrary { s.library with zones := Table.put s.library.zones i Zone.initial z }

/-- R25: the records of an accepted LOAD_ZONES. -/
def State.putZones (s : State) (b : List Byte) : State :=
  (List.range (zonesCount b)).foldl (fun s p => s.putZone (zonesFirst b + p) (zonesRecord b p)) s

/-- R24, R25: a LOAD_ZONES is carried out. -/
def State.loadZones (s : State) (r : Request) : State :=
  match firstFailure (zonesChecks r.body) with
  | some ordinal => s.reply r (badField ordinal)
  | none => (s.putZones r.body).reply r okAnswer

/-- LOAD_ZONES (R24). -/
def execLoadZones (s : State) : Host.Outcome State Fault Refusal :=
  s.serve (isRequest kindLoadZones) fun r t => t.loadZones r

/-- One velocity curve written (R29). -/
def State.putCurve (s : State) (i : Nat) (c : Curve) : State :=
  s.setLibrary { s.library with curves := Table.put s.library.curves i Curve.initial c }

/-- R29: a LOAD_CURVE is carried out. -/
def State.loadCurve (s : State) (r : Request) : State :=
  if 15 < curveIndex r.body then s.reply r (badField 1)
  else if curveRises (curveOf r.body) then (s.putCurve (curveIndex r.body) (curveOf r.body)).reply r okAnswer
  else s.reply r (refusal .badCurve)

/-- LOAD_CURVE (R29). -/
def execLoadCurve (s : State) : Host.Outcome State Fault Refusal :=
  s.serve (isRequest kindLoadCurve) fun r t => t.loadCurve r

/-- One fold matrix written (R33). -/
def State.putMatrix (s : State) (i : Nat) (m : FoldMatrix) : State :=
  s.setLibrary { s.library with matrices := Table.put s.library.matrices i FoldMatrix.initial m }

/-- R33: a LOAD_MATRIX is carried out: the staged copy is written and its mark set. -/
def State.loadMatrix (s : State) (r : Request) : State :=
  let i := matrixIndex r.body
  if 255 < i then s.reply r (badField 1)
  else (s.putMatrix i { s.matrix i with staged := matrixFold r.body, pending := true }).reply r okAnswer

/-- LOAD_MATRIX (R33). -/
def execLoadMatrix (s : State) : Host.Outcome State Fault Refusal :=
  s.serve (isRequest kindLoadMatrix) fun r t => t.loadMatrix r

/-! ### Event requests (R182 to R185) -/

/-- The reports as the entries of an event request leave them, and whether one of them wants a NOTICE. -/
structure EventWork where
  report : Report
  wanted : Bool
deriving DecidableEq, Repr

/-- R183: one entry of an EVENT_MASK. -/
def EventWork.mask (w : EventWork) (k : EventKind) (m : Bool) : EventWork :=
  { report := w.report.putEvent k ((w.report.event k).setMask m),
    wanted := w.wanted || (w.report.event k).entersOnMask m }

/-- R184: one entry of an EVENT_CLEAR. -/
def EventWork.clear (w : EventWork) (k : EventKind) : EventWork :=
  { report := w.report.putEvent k (w.report.event k).clear, wanted := w.wanted }

/-- R185: one entry of an EVENT_SET: an occurrence with an empty capture. -/
def EventWork.occur (w : EventWork) (k : EventKind) : EventWork :=
  { report := w.report.putEvent k ((w.report.event k).occur none),
    wanted := w.wanted || (w.report.event k).entersOnOccur }

/-- The entry at byte `i` names a kind; R182 has checked that it does. -/
def eventAt (b : List Byte) (i : Nat) : Option EventKind :=
  EventKind.ofCode (field b i 1)

/-- R183: the entries of an EVENT_MASK in list order. -/
def maskWork (b : List Byte) (r : Report) : EventWork :=
  (List.range (maskEntries b)).foldl (fun w p =>
    match eventAt b (2 * p) with
    | none => w
    | some k => w.mask k (field b (2 * p + 1) 1 == 1)) { report := r, wanted := false }

/-- R184: the entries of an EVENT_CLEAR in list order. -/
def clearWork (b : List Byte) (r : Report) : EventWork :=
  (List.range b.length).foldl (fun w p =>
    match eventAt b p with
    | none => w
    | some k => w.clear k) { report := r, wanted := false }

/-- R185: the entries of an EVENT_SET in list order. -/
def setWork (b : List Byte) (r : Report) : EventWork :=
  (List.range b.length).foldl (fun w p =>
    match eventAt b p with
    | none => w
    | some k => w.occur k) { report := r, wanted := false }

/-- R182, R183, R185: the entries that want NOTICEs are satisfied by one, built when the request has been carried out
whole; when the request has left the set empty there is nothing to list (R180: 1..20 entries; log 32). -/
def EventWork.finish (w : EventWork) : Report :=
  if w.wanted && !w.report.noticeEntries.isEmpty then w.report.wantNotice else w.report

/-- R182: an event request is carried out, or refused whole. -/
def State.eventRequest (s : State) (r : Request) (checks : List (Nat × Bool)) (w : EventWork) : State :=
  match firstFailure checks with
  | some ordinal => s.reply r (badField ordinal)
  | none => (s.setReport w.finish).reply r okAnswer

/-- EVENT_MASK (R182, R183). -/
def execEventMask (s : State) : Host.Outcome State Fault Refusal :=
  s.serve (isRequest kindEventMask) fun r t => t.eventRequest r (maskChecks r.body) (maskWork r.body t.report)

/-- EVENT_CLEAR (R182, R184). -/
def execEventClear (s : State) : Host.Outcome State Fault Refusal :=
  s.serve (isRequest kindEventClear) fun r t => t.eventRequest r (codeChecks r.body) (clearWork r.body t.report)

/-- EVENT_SET (R182, R185). -/
def execEventSet (s : State) : Host.Outcome State Fault Refusal :=
  s.serve (isRequest kindEventSet) fun r t => t.eventRequest r (codeChecks r.body) (setWork r.body t.report)

/-! ### The requests that wait for a pass under way (R165, R168, R171 to R175) -/

/-- A request that is carried out at once, or, while a pass is under way, at the pass's completion: the unit stays
BUSY with it until then (log 19). -/
def State.betweenPasses (s : State) (r : Request) (finish : Request → State → State) : State :=
  if s.passUnderWay then s else finish r s

/-- R171: the answer to a QUERY_VOICE. -/
def State.voiceAnswer (s : State) (b : List Byte) : Answer :=
  match s.findTag? (BitVec.ofNat 32 (field b 0 4)) with
  | none => refusal .notFound
  | some v =>
    match s.voice? v with
    | none => refusal .notFound
    | some x => okWith (s.voiceResult v x)

/-- R171: a QUERY_VOICE is answered, and its free values are used up (log 15, 22). -/
def State.finishQueryVoice (r : Request) (s : State) : State :=
  (s.reply r (s.voiceAnswer r.body)).setFreeCount (s.freeCount + 1)

/-- QUERY_VOICE (R171). -/
def execQueryVoice (s : State) : Host.Outcome State Fault Refusal :=
  s.serve (isRequest kindQueryVoice) fun r t => t.betweenPasses r State.finishQueryVoice

/-- R172: the fields of a QUERY_STATUS begin to be read; how many are read at once is a free value (log 34, 22). -/
def State.finishQueryStatus (r : Request) (s : State) : State :=
  (s.readOn r { told := [], left := statusParts } (Config.statusReadAtOnce s.freeCount)).setFreeCount (s.freeCount + 1)

/-- QUERY_STATUS (R172). -/
def execQueryStatus (s : State) : Host.Outcome State Fault Refusal :=
  s.serve (isRequest kindQueryStatus) fun r t => t.betweenPasses r State.finishQueryStatus

/-- R119, R173: a RESYNC takes effect and is answered. -/
def State.finishResync (r : Request) (s : State) : State :=
  s.forceSearch.reply r okAnswer

/-- RESYNC (R173). -/
def execResync (s : State) : Host.Outcome State Fault Refusal :=
  s.serve (isRequest kindResync) fun r t => t.betweenPasses r State.finishResync

/-- R174: a RESET takes effect in every block and is answered. -/
def State.finishReset (r : Request) (s : State) : State :=
  (s.softReset.reply r okAnswer).dispatch

/-- RESET (R174, R175). -/
def execReset (s : State) : Host.Outcome State Fault Refusal :=
  s.serve (isRequest kindReset) fun r t => t.betweenPasses r State.finishReset

/-- R121: the tracker's part of an accepted CONFIGURE. A tick handed on and not yet taken is kept (log 4). -/
def State.configureTracker (s : State) : State :=
  let t := s.setCadence s.cadence.resetTracker
  if s.cadence.state = .search then t else t.raiseCadence s.cadence

/-- R168, steps 3 and 4. -/
def State.finishConfigure (r : Request) (s : State) : State :=
  s.configureTracker.reply r okAnswer

/-- R168, steps 1 and 2; during a pass the tracker keeps the parameters it runs under (log 29). -/
def State.adopt (s : State) (r : Request) : State :=
  let t := (s.setConfig (configOf r.body)).setPort { s.port with partner := some r.source }
  if s.passUnderWay then t.setCadence { s.cadence with heldConfig := some s.config } else t

/-- R167, R168: a CONFIGURE is carried out. -/
def State.configure (s : State) (r : Request) : State :=
  if s.voices.isEmpty then
    match firstFailure (configChecks r.body) with
    | some ordinal => s.reply r (badField ordinal)
    | none => (s.adopt r).betweenPasses r State.finishConfigure
  else s.reply r (refusal .voicesActive)

/-- CONFIGURE (R167). -/
def execConfigure (s : State) : Host.Outcome State Fault Refusal :=
  s.serve (isRequest kindConfigure) fun r t => t.configure r

/-- R105: the request that waited for the pass is finished, by its kind. -/
def State.finishRequest (s : State) (r : Request) : State :=
  if r.kind = kindConfigure then State.finishConfigure r s
  else if r.kind = kindQueryVoice then State.finishQueryVoice r s
  else if r.kind = kindQueryStatus then State.finishQueryStatus r s
  else if r.kind = kindResync then State.finishResync r s
  else if r.kind = kindReset then State.finishReset r s
  else s

/-- R105: the request that waited for the pass, if any, is finished. -/
def State.finishDeferred (s : State) : State :=
  match s.report.busy with
  | none => s
  | some r => s.finishRequest r

end Sys2Proof.Machine
end

