-- ==== Sys2Proof/Machine/Completion.lean ====
section
/-! DEFINITION. The completion of a render pass (R145, with R76, R105, R106, R116 and R158). -/

namespace Sys2Proof.Machine

/-- R156: the open frame closes when its pass completes. -/
def closeOpenFrame (q : List DataFrame) : List DataFrame :=
  match q.getLast? with
  | none => q
  | some f => q.dropLast ++ [{ f with closed := true }]

/-- R145: EGRESS_OVERRUN, once, when blocks were dropped in the pass. -/
def State.reportOverrun (s : State) (p : Pass) : State :=
  if p.dropped = 0 then s else s.raise (.egressOverrun p.period p.dropped)

/-- R76: the refill checks of the records that passed a chunk in the pass. -/
def State.refillPassed (s : State) (p : Pass) : State :=
  p.passed.foldl State.refillVoice s

/-- R158: the flush of the end list at a pass completion. -/
def State.flushEnds (s : State) : State :=
  s.setReport (s.report.flushAll controlPlaces)

/-- R145: the overrun report, the refill checks and the flush. Which NOTICE comes before the flush is left open: free
values (log 13). -/
def State.completionReports (s : State) (p : Pass) : State :=
  let n := s.freeCount
  let told := if Config.overrunBeforeFlush n then s.reportOverrun p else s
  let refilled := if Config.refillBeforeFlush n then told.refillPassed p else told
  let flushed := refilled.flushEnds
  let reported := if Config.overrunBeforeFlush n then flushed else flushed.reportOverrun p
  if Config.refillBeforeFlush n then reported else reported.refillPassed p

/-- R106, R145: the pass completes: its open frame closes, pass under way is cleared, the render horizon advances, and
the reports, refills and flush are made. -/
def State.completePass (s : State) (p : Pass) : State :=
  let closed := s.setPort { s.port with dataQueue := closeOpenFrame s.port.dataQueue }
  let advanced := (closed.setPass none).setCadence { s.cadence with horizon := some (p.period + 1) }
  ((advanced.completionReports p).dispatch).setFreeCount (s.freeCount + 1)

/-- R105, R116: ahead of the waiting list, the error-limit action and the request that waited; the manual gives no
order between the two: a free value (log 14). `n` is the free-value counter at the completion. -/
def State.takeDeferred (s : State) (n : Nat) : State :=
  if Config.limitBeforeRequest n then s.actOnLimit.finishDeferred else s.finishDeferred.actOnLimit

/-- R105: the waiting list is taken once the pass has completed. -/
def State.takeWaitingList (s : State) : State :=
  State.takeAllWaiting s.cadence.waiting.length s

/-- R122, R145: the records that have not had their turn have it before the pass completes. -/
def State.renderRest (s : State) (p : Pass) : State :=
  s.renderTurns p.period (s.turnsLeft p)

/-- R145, R106, R105: the completion of the pass under way, every voice taking part having been rendered. The fields of
a QUERY_STATUS are read before the waiting list opens the next pass (R172). -/
def State.finishPass (s : State) : State :=
  match s.pass with
  | none => s
  | some p => (((s.completePass p).takeDeferred s.freeCount).readBefore State.takeWaitingList).dispatch

/-- PASS_COMPLETE (R145, R106, R105). A tick that reached the tracker during the pass joins the waiting list first (R105;
log 1). -/
def execPassComplete (elapsed : Nat) (s : State) : Host.Outcome State Fault Refusal :=
  match s.pass with
  | none => .next s
  | some p => if s.port.handed.isEmpty then .next ((s.passTime elapsed).renderRest p).finishPass else .next s

end Sys2Proof.Machine
end

