-- ==== Sys2Proof/Machine/Port.lean ====
section
/-! DEFINITION. The link port's own commands (chapter 8): power-on, frames in and out, the link going down and up, and
the claims on a freed place of the control queue. -/

namespace Sys2Proof.Machine

/-! ### POWER_ON (R148) -/

/-- The lowest EtherType the port adopts (R148). -/
def lowestEtherType : Nat := 0x0600

/-- R148: the memory's bytes give an identity: 12 bytes whose check value is the CRC-32 of the first eight, with an
EtherType of 0x0600 or above. Fewer than 12 bytes are a memory that does not answer (log 26). -/
def memoryHolds (bytes : List Byte) : Bool :=
  decide (12 ≤ bytes.length) && decide (field bytes 8 4 = (crc32 (slice bytes 0 8)).toNat) &&
    decide (lowestEtherType ≤ field bytes 6 2)

/-- R148, R162: the port at power-on. -/
def powerOnPort (memory : Option (List Byte)) : Port :=
  match memory with
  | none => Port.initial
  | some bytes =>
    if memoryHolds bytes then
      { Port.initial with station := BitVec.ofNat 48 (field bytes 0 6), etherType := BitVec.ofNat 16 (field bytes 6 2),
                          memoryStatus := .read }
    else Port.initial

/-- POWER_ON (R148; the power-on columns of R19, R36, R61, R85, R102, R121, R147, R162, R176 and R186). DRAM is not
cleared (R19, log 8). -/
def execPowerOn (memory : Option (List Byte)) (present : PerLane Bool) (s : State) :
    Host.Outcome State Fault Refusal :=
  .next { State.reset with port := powerOnPort memory, lanes := PerLane.map present Lane.initial,
                           headStore := s.headStore, ringStore := s.ringStore, freeCount := s.freeCount,
                           pending := s.pending }

/-! ### FRAME_RECEIVED (R149 to R154) -/

/-- The longest payload the MAC takes (R149). -/
def payloadLimit : Nat := 9000

/-- The shortest payload of an accepted frame (R149; log 10). -/
def payloadFloor : Nat := 46

/-- R149: the frame is for this part. -/
def Port.accepts (p : Port) (f : Frame) : Bool :=
  f.checkOk && decide (payloadFloor ≤ f.payload.length) && decide (f.payload.length ≤ payloadLimit) &&
    f.destination == p.station && f.etherType == p.etherType

/-- R150: the frame passes the partner check. -/
def Port.knows (p : Port) (f : Frame) : Bool :=
  headerKind f.payload == kindConfigure || p.partner == some f.source

/-- The most items of the voice request queue (R152). -/
def voiceQueueLimit : Nat := 256

/-- The most ticks of the pending-tick list (R153). -/
def pendingTickLimit : Nat := 16

/-- The most requests of the management queue (R154). -/
def mgmtQueueLimit : Nat := 8

/-- R152: a voice item joins the voice request queue, or is dropped. -/
def State.acceptVoiceItem (s : State) (i : VoiceItem) : State :=
  if s.port.voiceQueue.length < voiceQueueLimit then
    s.setPort { s.port with voiceQueue := s.port.voiceQueue ++ [i] }
  else s.raise (.ingressOverflow .voiceRequests)

/-- R153: a tick is handed on at once, with its arrival time, joins the pending-tick list, or is dropped. -/
def State.acceptTick (s : State) (n : PeriodIndex) : State :=
  if s.port.voiceQueue.isEmpty then
    s.setPort { s.port with handed := s.port.handed ++ [{ index := n, arrival := s.cadence.clock }] }
  else if s.port.pendingTicks.length < pendingTickLimit then
    s.setPort { s.port with pendingTicks := s.port.pendingTicks ++ [{ index := n, ahead := s.port.voiceQueue.length }] }
  else s.raise (.ingressOverflow .pendingTicks)

/-- R152: one item of a well-formed STREAM frame. -/
def State.acceptItem (s : State) : StreamItem → State
  | .voice i => s.acceptVoiceItem i
  | .tick n => s.acceptTick n

/-- R151, R152: a malformed STREAM frame is counted. -/
def State.countMalformed (s : State) : State :=
  s.setPort { s.port with malformed := saturate16 (s.port.malformed + 1) }

/-- R151, R152: a STREAM frame. -/
def State.acceptStream (s : State) (payload : List Byte) : State :=
  match streamItems payload with
  | none => s.countMalformed
  | some items => items.foldl State.acceptItem s

/-- R151: the request that a management message makes. -/
def requestOf (f : Frame) : Request :=
  { source := f.source, number := headerNumber f.payload, kind := headerKind f.payload, mark := headerMark f.payload,
    body := messageBody f.payload }

/-- R154: a request joins the management queue, or is dropped. -/
def State.acceptRequest (s : State) (r : Request) : State :=
  if s.port.mgmtQueue.length < mgmtQueueLimit then s.setPort { s.port with mgmtQueue := s.port.mgmtQueue ++ [r] }
  else s.raise (.ingressOverflow .management)

/-- R151: a frame that passed the partner check, by its kind. -/
def State.classify (s : State) (f : Frame) : State :=
  if headerKind f.payload = kindStream then s.acceptStream f.payload else s.acceptRequest (requestOf f)

/-- FRAME_RECEIVED (R149 to R154). A frame is taken whether the link is up or down (log 33). -/
def execFrameReceived (f : Frame) (s : State) : Host.Outcome State Fault Refusal :=
  if s.port.accepts f then
    if s.port.knows f then .next (s.classify f) else .next (s.raise (.foreignSource f.source))
  else .next s

/-! ### TRANSMIT_FRAME (R159) -/

/-- R159: the head of the control queue is sent, and its place becomes free. -/
def State.sendControl (s : State) (f : ControlFrame) (rest : List ControlFrame) : State :=
  (s.setPort (s.port.send (s.port.destinationOf f) (controlPayload f))).setReport { s.report with control := rest }

/-- R159: the oldest closed frame of the data queue is sent and leaves it. -/
def State.sendData (s : State) : State :=
  match s.port.dataQueue with
  | [] => s
  | f :: rest =>
    if f.closed then s.setPort ({ s.port with dataQueue := rest }.send s.port.partner (dataPayload f)) else s

/-- TRANSMIT_FRAME (R159, R160): with the link down, or nothing to send, the port waits. -/
def execTransmitFrame (s : State) : Host.Outcome State Fault Refusal :=
  if s.port.linkUp then
    match s.report.control with
    | f :: rest => .next (s.sendControl f rest)
    | [] => .next s.sendData
  else .next s

/-! ### The claims on a freed place (R155, R158, R180) -/

/-- R180: the held NOTICE is built into a free place, or the hold is released when the masked-pending set is empty. -/
def Report.placeHeld (r : Report) : Report :=
  let released := { r with noticeHeld := false }
  if r.noticeEntries.isEmpty then released else released.fill (.notice r.noticeEntries)

/-- NOTICE_HELD_QUEUED (R180): the held NOTICE receives a freed place. -/
def execNoticeHeldQueued (s : State) : Host.Outcome State Fault Refusal :=
  if s.report.noticeHeld && decide (0 < s.report.freePlaces) then .next (s.setReport s.report.placeHeld) else .next s

/-- END_LIST_FLUSH_ON_ROOM (R155, R158): a freed place takes 64 end records. -/
def execEndListFlushOnRoom (s : State) : Host.Outcome State Fault Refusal :=
  if decide (endFrameRecords ≤ s.report.endList.length) && decide (0 < s.report.endPlaces) then
    .next (s.setReport s.report.flushOne)
  else .next s

/-! ### LINK_DOWN and LINK_UP (R160, R161, R181) -/

/-- A frame that the link-down flush keeps (R160). -/
def ControlFrame.isReply : ControlFrame → Bool
  | .reply _ _ _ _ => true
  | .notice _ => false
  | .voiceEnd _ => false

/-- A NOTICE. -/
def ControlFrame.isNotice : ControlFrame → Bool
  | .reply _ _ _ _ => false
  | .notice _ => true
  | .voiceEnd _ => false

/-- R160: the control queue's NOTICE and VOICE_END frames are discarded. -/
def Report.flushLink (r : Report) : Report :=
  { r with control := r.control.filter ControlFrame.isReply }

/-- R181: a NOTICE is wanted after the flush: LINK_STATE wants one, one was held, or one was discarded. -/
def Report.linkWants (r : Report) : Bool :=
  (r.event .linkState).entersOnOccur || r.noticeHeld || r.control.any ControlFrame.isNotice

/-- R181: after LINK_STATE has been recorded and the places freed, the one NOTICE that is wanted is built at once into
a freed place, or held where the replies leave none; with an empty set a hold that a freed place reaches is
released. -/
def Report.relist (r : Report) (wants : Bool) : Report :=
  if r.noticeEntries.isEmpty then { r with noticeHeld := r.noticeHeld && r.freePlaces == 0 }
  else if wants then { r with noticeHeld := false }.wantNotice else r

/-- R160, R181: the reports when the link goes down. -/
def Report.linkDown (r : Report) : Report :=
  let recorded := r.putEvent .linkState ((r.event .linkState).occur (some (.linkState false)))
  recorded.flushLink.relist r.linkWants

/-- LINK_DOWN (R160, R181). -/
def execLinkDown (s : State) : Host.Outcome State Fault Refusal :=
  .next ((s.setPort { s.port with linkUp := false, dataQueue := [] }).setReport s.report.linkDown)

/-- LINK_UP (R161). -/
def execLinkUp (s : State) : Host.Outcome State Fault Refusal :=
  .next ((s.setPort { s.port with linkUp := true }).raise (.linkState true))

end Sys2Proof.Machine
end

