-- ==== Sys2Proof/Machine/Dispatch.lean ====
section
/-! DEFINITION. The meaning of each command: one arm per constructor of Instr. -/

namespace Sys2Proof.Machine

/-- A command's effect on everything but the queue of waiting commands. -/
def exec (i : Instr) (s : State) : Host.Outcome State Fault Refusal :=
  match i with
  | .powerOn memory present => Sys2Proof.Machine.execPowerOn memory present s
  | .frameReceived frame => Sys2Proof.Machine.execFrameReceived frame s
  | .voiceStart => Sys2Proof.Machine.execVoiceStart s
  | .voiceRelease => Sys2Proof.Machine.execVoiceRelease s
  | .voiceStop => Sys2Proof.Machine.execVoiceStop s
  | .stopAll => Sys2Proof.Machine.execStopAll s
  | .tick elapsed => Sys2Proof.Machine.execTick elapsed s
  | .localPeriodTimerExpiry => Sys2Proof.Machine.execLocalPeriodTimerExpiry s
  | .passComplete elapsed => Sys2Proof.Machine.execPassComplete elapsed s
  | .readCompletion lane number status data => Sys2Proof.Machine.execReadCompletion lane number status data s
  | .readTimeout lane number => Sys2Proof.Machine.execReadTimeout lane number s
  | .staleHoldExpiry lane number => Sys2Proof.Machine.execStaleHoldExpiry lane number s
  | .errorWindowEnd lane => Sys2Proof.Machine.execErrorWindowEnd lane s
  | .presenceLost lane => Sys2Proof.Machine.execPresenceLost lane s
  | .presenceReturned lane => Sys2Proof.Machine.execPresenceReturned lane s
  | .linkDown => Sys2Proof.Machine.execLinkDown s
  | .linkUp => Sys2Proof.Machine.execLinkUp s
  | .transmitFrame => Sys2Proof.Machine.execTransmitFrame s
  | .noticeHeldQueued => Sys2Proof.Machine.execNoticeHeldQueued s
  | .endListFlushOnRoom => Sys2Proof.Machine.execEndListFlushOnRoom s
  | .badRequestReply => Sys2Proof.Machine.execBadRequestReply s
  | .configure => Sys2Proof.Machine.execConfigure s
  | .loadSample => Sys2Proof.Machine.execLoadSample s
  | .retireSample => Sys2Proof.Machine.execRetireSample s
  | .querySample => Sys2Proof.Machine.execQuerySample s
  | .loadArticulation => Sys2Proof.Machine.execLoadArticulation s
  | .loadZones => Sys2Proof.Machine.execLoadZones s
  | .loadCurve => Sys2Proof.Machine.execLoadCurve s
  | .loadMatrix => Sys2Proof.Machine.execLoadMatrix s
  | .queryVoice => Sys2Proof.Machine.execQueryVoice s
  | .queryStatus => Sys2Proof.Machine.execQueryStatus s
  | .eventMask => Sys2Proof.Machine.execEventMask s
  | .eventClear => Sys2Proof.Machine.execEventClear s
  | .eventSet => Sys2Proof.Machine.execEventSet s
  | .resync => Sys2Proof.Machine.execResync s
  | .reset => Sys2Proof.Machine.execReset s

end Sys2Proof.Machine
end

