-- ==== Sys2Proof/Machine/Idle.lean ====
section
/-! DEFINITION. What the part does by itself, command or no command: its local clock runs, a pass under way is rendered
voice by voice, and the fields of a QUERY_STATUS are read in turn. The table has no row for these; they are what a step
on an empty queue does (log 2). -/

namespace Sys2Proof.Machine

/-- R122: one turn of the pass under way, and the time it takes, a free value (log 3). -/
def State.idleTurn (s : State) (p : Pass) (v : Nat) : State :=
  (((s.renderTurn p.period v).passTime (Config.framesPerTurn s.freeCount)).setFreeCount (s.freeCount + 1)).dispatch

/-- An idle step with no QUERY_STATUS being read. A tick that has reached the tracker is taken before anything else
happens to the tracker (R105); a pass with records left gives the next its turn (R122); else one frame of the local clock
passes (R104). -/
def State.idleOn (s : State) : State :=
  if !s.port.handed.isEmpty then s
  else
    match s.pass with
    | none => s.passTime 1
    | some p =>
      match s.turnsLeft p with
      | [] => s.passTime 1
      | v :: _ => s.idleTurn p v

/-- One idle step. The next part of a QUERY_STATUS is read while one is left (R172, log 34). -/
def State.idle (s : State) : State :=
  match s.report.reading? with
  | some (r, g) => s.readOn r g 1
  | none => s.idleOn

end Sys2Proof.Machine
end

