-- ==== Sys2Proof/Safety.lean ====
section
/-! DEFINITION. What a sound state of the part is, in the manual's terms: the invariants that its rules state. -/

namespace Sys2Proof.Machine

/-- The two DRAM memories are in their one form (log 8). -/
def State.MemoryFormed (s : State) : Prop :=
  Memory.wf s.headStore ∧ Memory.wf s.ringStore

/-- R177: the masked-pending mark is the raw flag of an unmasked event, the count is at most 65,535, and a capture is
present only while the raw flag is set. -/
def EventRecord.Consistent (e : EventRecord) : Prop :=
  e.pending = (e.raw && !e.masked) ∧ e.count ≤ 65535 ∧ (e.raw = false → e.capture = none)

/-- R177, for all twenty kinds. -/
def Report.EventsConsistent (r : Report) : Prop :=
  ∀ k, (r.event k).Consistent

/-- R155, R158: at most 16 places of the control queue are filled or reserved, and the end list holds at most 256. -/
def Report.Bounded (r : Report) : Prop :=
  r.control.length + (if r.busy.isSome then 1 else 0) ≤ controlPlaces ∧ r.endList.length ≤ endListLimit

/-- R151 to R156: the bounds of the port's queues and of its malformed STREAM count. -/
def Port.Bounded (p : Port) : Prop :=
  p.voiceQueue.length ≤ voiceQueueLimit ∧ p.pendingTicks.length ≤ pendingTickLimit ∧
    p.mgmtQueue.length ≤ mgmtQueueLimit ∧ p.dataQueue.length ≤ dataQueueLimit ∧ p.malformed ≤ 65535

/-- R151 to R158: every queue of the part is within its bound. -/
def State.QueuesBounded (s : State) : Prop :=
  s.port.Bounded ∧ s.report.Bounded

/-- R27: every articulation's round-robin cursor is less than its round-robin count. -/
def State.CursorsBelow (s : State) : Prop :=
  ∀ i, (s.articulation i).cursor < (s.articulation i).roundRobinCount

/-- R39: no two non-FREE voices carry the same tag; the records are listed by rising index. -/
def State.TagsDistinct (s : State) : Prop :=
  Table.Rising s.voices ∧ ∀ v w x y, s.voice? v = some x → s.voice? w = some y → x.tag = y.tag → v = w

/-- R103, R106: a pass is under way only while the tracker is LOCKED or HOLDOVER, and its period is the render
horizon. -/
def State.PassHolds (s : State) : Prop :=
  ∀ p, s.pass = some p → s.cadence.state.running = true ∧ s.cadence.horizon = some p.period

/-- R172: no QUERY_STATUS is being read. -/
def State.NoneRead (s : State) : Prop :=
  s.report.busy = none ∨ s.report.reading = none

/-- R165, R172: the fields of a QUERY_STATUS are read between passes, in the order of the layout, and the unit is BUSY
with it while one is left. -/
def State.ReadBetween (s : State) : Prop :=
  ∀ g, s.report.reading = some g → s.pass = none ∧ g.left ≠ [] ∧ g.left <:+ statusParts ∧
    ∃ r, s.report.busy = some r ∧ r.kind = kindQueryStatus

/-- An output sample of 24 bits (R133). -/
def Is24Bit (y : Int) : Prop :=
  -8388608 ≤ y ∧ y ≤ 8388607

/-- R133: every output sample of every block that waits to be sent is one of 24 bits. -/
def State.OutputInRange (s : State) : Prop :=
  ∀ f ∈ s.port.dataQueue, ∀ b ∈ f.blocks, ∀ y ∈ b.frames, Is24Bit y.1 ∧ Is24Bit y.2

/-- The number of non-FREE voices that play the entry of a handle (R17). -/
def State.playing (s : State) (h : Nat) : Nat :=
  (s.voices.filter fun row => row.2.handle == h).length

/-- R7: the handles of a lane's priming list are those of PRIMING entries of that lane. -/
def State.PrimingListed (s : State) : Prop :=
  ∀ l, ∀ h ∈ (s.lane l).primingList, ∃ e, s.entry? h = some e ∧ e.state = .priming ∧ e.lane = l

/-- R17: every entry's reference count is the number of non-FREE voices playing it, an entry with a nonzero count is
READY or RETIRING, and every non-FREE voice plays an entry that is not EMPTY; with R7, on which this rests, and the
two tables listed by rising index. -/
def State.CountsHold (s : State) : Prop :=
  Table.Rising s.voices ∧ Table.Rising s.library.samples ∧ s.PrimingListed ∧
    (∀ h e, s.entry? h = some e →
      e.refCount = s.playing h ∧ (0 < e.refCount → e.state = .ready ∨ e.state = .retiring)) ∧
    ∀ v x, s.voice? v = some x → (s.entry? x.handle).isSome = true

/-- R69: the parts that wait in the four fetch queues: voice record, slot and part number. -/
def State.partsQueued (s : State) : List (Nat × Nat × Nat) :=
  [LaneId.lane0, .lane1, .lane2, .lane3].flatMap fun l => (s.lane l).queue.map fun n => (n.voice, n.slot, n.part)

/-- R88: the parts that the four lanes are reading. -/
def State.partsRead (s : State) : List (Nat × Nat × Nat) :=
  [LaneId.lane0, .lane1, .lane2, .lane3].flatMap fun l => (s.lane l).reads.filterMap fun row =>
    match row.2 with
    | .busy (.stream v j p) _ _ _ => some (v, j, p)
    | .busy (.priming _ _ _) _ _ _ => none
    | .stale _ => none

/-- R63, R64, R69, R71, R88: no part waits twice or is read twice; a part waits in a queue exactly while its slot marks
it WAITING; one that is read is marked OUTSTANDING; a slot counts the reads it has outstanding, none while QUEUED or
FULL, and has no part WAITING while FULL, LOST or DRAINING; a module that is absent has its lane OFFLINE and no read.
-/
def State.FetchSound (s : State) : Prop :=
  Table.Rising s.slots ∧
    (∀ l, Table.Rising (s.lane l).reads ∧
      ((s.lane l).present = false → (s.lane l).state = .offline ∧ (s.lane l).reads = [])) ∧
    s.partsQueued.Nodup ∧ s.partsRead.Nodup ∧
    (∀ v j p, (v, j, p) ∈ s.partsQueued ↔ j < 8 ∧ ∃ x, s.slot? v j = some x ∧ x.marks[p]? = some .waiting) ∧
    (∀ v j p, (v, j, p) ∈ s.partsRead → j < 8 ∧ ∃ x, s.slot? v j = some x ∧ x.marks[p]? = some .outstanding) ∧
    ∀ v j x, j < 8 → s.slot? v j = some x →
      x.outstanding = (s.partsRead.filter fun r => r.1 == v && r.2.1 == j).length ∧
      (x.state = .queued ∨ x.state = .full → x.outstanding = 0) ∧
      (x.state = .full ∨ x.state = .lost ∨ x.state = .draining → .waiting ∉ x.marks)

/-- R75: chunk `k` belongs in slot `j` of a voice's ring, and lies within the eight chunks of its window. -/
def Voice.Wants (x : Voice) (j k : Nat) : Prop :=
  x.headChunks ≤ k ∧ (k - x.headChunks) % 8 = j ∧ x.emit.toNat / 1024 ≤ k ∧
    k < max (x.emit.toNat / 1024) x.headChunks + 8

/-- R62, R75: every slot that is QUEUED, IN_FLIGHT, FULL or LOST holds a chunk of its voice's window, in that chunk's
place, and so does every successor that a DRAINING slot records; so no chunk is held twice. P is at most a chunk. -/
def State.WindowsHold (s : State) : Prop :=
  s.config.period ≤ 1024 ∧ Table.Rising s.voices ∧ Table.Rising s.slots ∧
    ∀ v j slot, j < 8 → s.slot? v j = some slot → ∀ k, committedChunk (some slot) = some k →
      ∃ x, s.voice? v = some x ∧ x.Wants j k

/-- R67, R69: part `p` of the chunk that a slot of record `v` holds is to be read on lane `l`, the lane of the sample
that the voice plays, at this unit address and with this unit count. -/
def State.PartRead (s : State) (l : LaneId) (v p : Nat) (slot : Slot) (address unitCount : Nat) : Prop :=
  ∃ x e part, s.voice? v = some x ∧ s.entry? x.handle = some e ∧ e.lane = l ∧
    (chunkParts x e slot.chunk)[p]? = some part ∧ address = partAddress e part ∧ unitCount = partUnitCount e part

/-- R67, R69: an entry of a lane's fetch queue names its slot's deadline and its part's read, and the lane is that of
its voice's sample; so is the lane of a read of an IN_FLIGHT slot, and the read is that of its part. -/
def State.QueuesPlaced (s : State) : Prop :=
  (∀ l, ∀ n ∈ (s.lane l).queue, ∃ slot, s.slot? n.voice n.slot = some slot ∧ n.deadline = slot.deadline ∧
    s.PartRead l n.voice n.part slot n.address n.unitCount) ∧
  ∀ l, ∀ row ∈ (s.lane l).reads, ∀ v j p address unitCount timer,
    row.2 = .busy (.stream v j p) address unitCount timer → ∀ slot, s.slot? v j = some slot → slot.state = .inFlight →
      s.PartRead l v p slot address unitCount

/-! ### What the statements say of a step -/

/-- R154, R155, R164: the management unit is IDLE and takes `r`, the request at the head of its queue: a place of the
control queue is free, with neither a held NOTICE nor 64 end records ahead of the unit (log 20). -/
def State.Takes (s : State) (r : Request) (rest : List Request) : Prop :=
  s.port.mgmtQueue = r :: rest ∧ s.report.busy = none ∧ s.report.noticeHeld = false ∧
    s.report.endList.length < endFrameRecords ∧ s.report.control.length < controlPlaces

/-- R164: the state that differs from `s` in nothing but the request taken off its queue and its REPLY placed. -/
def State.answered (s : State) (r : Request) (rest : List Request) (a : Answer) : State :=
  { s with port := { s.port with mgmtQueue := rest },
           report := { s.report with control := s.report.control ++ [.reply r.source r.number r.kind a] } }

/-- R41, R153: the voice controller may take the item `i` at the head of its queue. -/
def State.TakesItem (s : State) (i : VoiceItem) (rest : List VoiceItem) : Prop :=
  s.pass = none ∧ s.port.voiceQueue = i :: rest

/-- R41, R153: the port when an item has been taken off its queue. -/
def State.itemOff (s : State) (rest : List VoiceItem) : Port :=
  Port.itemTaken { s.port with voiceQueue := rest } s.cadence.clock

/-- R105, R112, R113: the tick `n`, handed on at `arrival`, is the next that the tracker takes, and the timer does not
expire before it. -/
def State.TickNext (s : State) (n : PeriodIndex) (arrival : Nat) (rest : List HandedTick) : Prop :=
  s.port.handed = ⟨n, arrival⟩ :: rest ∧
    ∀ expiry ∈ s.cadence.timer, arrival < expiry ∨ (arrival = expiry ∧ s.cadence.state ≠ .holdover)

/-- R105: the tracker is free to take the tick `n`, handed on at `arrival`. -/
def State.TakesTick (s : State) (n : PeriodIndex) (arrival : Nat) (rest : List HandedTick) : Prop :=
  s.pass = none ∧ s.TickNext n arrival rest ∧ s.cadence.heldConfig = none ∧ s.cadence.limitDue = false

/-- R149, R150: the frame passes the port's checks, and its source is the session partner. -/
def State.Admits (s : State) (f : Frame) : Prop :=
  f.checkOk = true ∧ 46 ≤ f.payload.length ∧ f.payload.length ≤ 9000 ∧ f.destination = s.port.station ∧
    f.etherType = s.port.etherType ∧ s.port.partner = some f.source

/-- R167: the accepted ranges, J against P and M against W_t. -/
def Configuration.InRange (c : Configuration) : Prop :=
  c.sampleRate ∈ [44100, 48000, 88200, 96000] ∧ c.period ∈ [64, 128, 256, 512, 1024] ∧ 2 ≤ c.lead ∧ c.lead ≤ 16 ∧
    1 ≤ c.voiceLimit ∧ c.voiceLimit ≤ 2048 ∧ 1 ≤ c.lowWater ∧ c.lowWater ≤ 6 ∧ c.quietFloor ≤ 8388607 ∧
    c.quietRun ≤ 255 ∧ 1 ≤ c.readTimeout ∧ c.readTimeout ≤ 255 ∧ 1 ≤ c.laneThreshold ∧ c.laneThreshold ≤ 65535 ∧
    2 * c.tolerance ≤ c.period ∧ 4 ≤ c.errorWindow ∧ c.errorWindow ≤ 64 ∧ 1 ≤ c.errorLimit ∧
    c.errorLimit ≤ c.errorWindow ∧ 1 ≤ c.missedLimit ∧ c.missedLimit ≤ 255

end Sys2Proof.Machine
end

