-- ==== Sys2Proof/Certificates/Slice0/Obligations.lean ====
section
/-! DEFINITION. The statements for the provers: what the commands and the machine do, rule by rule of the manual. Each
docstring names its rules; "log" names a row of notes/assumptions/. -/

open Sys2Proof Sys2Proof.Machine

/-! ### The machine -/

/-- O1. A step takes the command at the front of the queue and carries it out with the queue's rest. On an empty queue
the part goes on by itself (the model's choice, logs 2, 3 and 5): while a QUERY_STATUS is being read its next fields
are read (O57); else not while a tick that has reached the tracker is still to be taken; else the next record of a pass
under way has its turn and the time it takes passes; else one frame of the local clock passes, up to the expiry of a
running timer. -/
def Obligations.StepTakesFront : Prop :=
  (∀ (c : Instr) (rest : List Instr) (s : State), s.pending = c :: rest → step s = exec c { s with pending := rest }) ∧
  ∀ s : State, s.pending = [] → s.NoneRead →
    (s.port.handed ≠ [] → step s = .next s) ∧
    (s.port.handed = [] →
      ((∀ p ∈ s.pass, ∀ row ∈ s.voices, row.1 < p.next) →
        (s.cadence.timer = none →
          step s = .next { s with cadence := { s.cadence with clock := s.cadence.clock + 1 } }) ∧
        ∀ expiry, s.cadence.timer = some expiry →
          step s = .next
            { s with cadence := { s.cadence with clock := if s.cadence.clock < expiry then s.cadence.clock + 1
                                                          else s.cadence.clock } }) ∧
      ∀ p v, s.pass = some p → Table.Rising s.voices → (s.voice? v).isSome = true → p.next ≤ v →
        (∀ w, p.next ≤ w → w < v → s.voice? w = none) →
        let t := s.renderRecord p.period v
        step s = .next (State.dispatch
          { t with pass := t.pass.map fun r => { r with next := v + 1 }
                   cadence := { t.cadence with clock := t.cadence.later (Config.framesPerTurn s.freeCount) }
                   freeCount := s.freeCount + 1 }))

/-- O2. Every command completes, in every state and with every operand: none is refused and none faults, for the manual
has no step that stops the part; and none touches the queue of waiting commands. -/
def Obligations.QueueKept : Prop :=
  ∀ (c : Instr) (s : State), ∃ t : State, exec c s = .next t ∧ t.pending = s.pending

/-- O3. Power-on values of every block (R19, R21, R23, R28, R32, R61, R85, R102, R103, R121, R147, R148, R162, R167,
R176, R186), every register spelled. The model's choices among them: the identity is that of a configuration memory
that does not answer and the four modules are present (log 6), so each lane is READY with an error window of a second
begun; the local clock and the last opening time are 0 (log 7); DRAM reads 0 (log 8); no frame was sent (log 23); the
model's own marks and queues are clear and empty (logs 4, 29, 34). On the free-value counter nothing rests
(log 22). -/
def Obligations.ResetValues : Prop :=
  -- the sample map and the articulation tables
  (∀ h, State.reset.entry? h = none) ∧
  (∀ i, State.reset.articulation i =
    { firstZone := 0, zoneCount := 0, roundRobinCount := 1, cursor := 0, releaseLength := 64 }) ∧
  (∀ i, State.reset.zone i = ⟨0, 0, 0, 0, 0, 0, 0, 0, 0⟩) ∧
  (∀ i, State.reset.curve i = ⟨⟨1, 32768⟩, ⟨26, 32768⟩, ⟨51, 32768⟩, ⟨76, 32768⟩, ⟨101, 32768⟩, ⟨127, 32768⟩⟩) ∧
  (∀ i, State.reset.matrix i =
    { active := ⟨[16384, 0, 0, 0, 0, 0, 0, 0], [0, 16384, 0, 0, 0, 0, 0, 0]⟩,
      staged := ⟨[16384, 0, 0, 0, 0, 0, 0, 0], [0, 16384, 0, 0, 0, 0, 0, 0]⟩, pending := false }) ∧
  -- the voice controller, the fetch scheduler, the lanes with their priming lists and records, the render engine
  (∀ v, State.reset.voice? v = none) ∧ State.reset.nextOrder = 0 ∧ (∀ v j, State.reset.slot? v j = none) ∧
  (∀ l, State.reset.lane l =
    { state := .ready, present := true, reads := [], errors := 0, window := some 1000, queue := [], primingList := [],
      segments := [], primingOutstanding := 0 }) ∧
  State.reset.pass = none ∧
  -- the cadence tracker
  State.reset.cadence =
    { state := .search, misaligned := false, candidate := none, lastTick := none, horizon := none, lastOpening := 0,
      timer := none, missed := 0, errorOpenings := 0, errorCount := 0, severeOpenings := 0, severeCount := 0,
      severeRaised := false, waiting := [], clock := 0, limitDue := false, heldConfig := none } ∧
  -- the configuration, the event unit, the management unit, the control queue and the end list
  State.reset.config =
    { sampleRate := 48000, period := 256, lead := 4, voiceLimit := 2048, lowWater := 3, quietFloor := 0, quietRun := 0,
      readTimeout := 20, laneThreshold := 64, tolerance := 32, errorWindow := 32, errorLimit := 8, missedLimit := 20,
      lostAction := .freeze, autoRelock := true } ∧
  (∀ k, State.reset.report.event k = { raw := false, masked := true, pending := false, count := 0, capture := none }) ∧
  (State.reset.report.noticeHeld = false ∧ State.reset.report.control = [] ∧ State.reset.report.busy = none ∧
    State.reset.report.reading = none ∧ State.reset.report.endList = []) ∧
  -- the link port, with the default identity
  State.reset.port =
    { station := 0x02CE42800000, etherType := 0x88B5, memoryStatus := .defaults, partner := none, linkUp := false,
      voiceQueue := [], pendingTicks := [], handed := [], mgmtQueue := [], dataQueue := [], malformed := 0,
      wire := none } ∧
  -- the model's own
  (∀ a, Memory.read State.reset.headStore a = 0 ∧ Memory.read State.reset.ringStore a = 0) ∧
  State.reset.pending = []

/-- O4. The state after power-on meets every invariant below. -/
def Obligations.ResetIsSound : Prop :=
  State.reset.MemoryFormed ∧ State.reset.report.EventsConsistent ∧ State.reset.QueuesBounded ∧
    State.reset.CursorsBelow ∧ State.reset.TagsDistinct ∧ State.reset.PassHolds ∧ State.reset.ReadBetween ∧
    State.reset.OutputInRange ∧ State.reset.CountsHold ∧ State.reset.FetchSound ∧ State.reset.WindowsHold ∧ State.reset.QueuesPlaced

/-- O5. Every step keeps the two DRAM memories in their one form (the model's choice, log 8). -/
def Obligations.MemoryFormKept : Prop :=
  ∀ s t : State, s.MemoryFormed → step s = .next t → t.MemoryFormed

/-- O6. Every step keeps R177: the masked-pending set is the raw flags of the unmasked events, no count exceeds 65,535,
and a capture is present only with its raw flag. -/
def Obligations.EventSetKept : Prop :=
  ∀ s t : State, s.report.EventsConsistent → step s = .next t → t.report.EventsConsistent

/-- O7. Every step keeps every queue within its bound (R151 to R156, R158). -/
def Obligations.QueueBoundsKept : Prop :=
  ∀ s t : State, s.QueuesBounded → step s = .next t → t.QueuesBounded

/-- O8. Every step keeps every round-robin cursor below its count (R27). -/
def Obligations.CursorsKept : Prop :=
  ∀ s t : State, s.CursorsBelow → step s = .next t → t.CursorsBelow

/-- O9. Every step keeps the tags of the non-FREE voices distinct (R39). The two premises are invariants by themselves
and together. -/
def Obligations.TagsKept : Prop :=
  ∀ s t : State, s.TagsDistinct → step s = .next t → t.TagsDistinct

/-- O10. Every step keeps R103, R106: a pass is under way only in LOCKED or HOLDOVER, and its period is the render
horizon; and R172: the fields of a QUERY_STATUS are read between passes, the unit BUSY with it, in the order of the
reply's layout (that the owners other than the lanes have their turns in it too is the model's reading, log 34). -/
def Obligations.PassHoldsKept : Prop :=
  (∀ s t : State, s.PassHolds → step s = .next t → t.PassHolds) ∧
    ∀ s t : State, s.ReadBetween → step s = .next t → t.ReadBetween

/-- O11. Every output sample that waits to be sent lies in -8,388,608..8,388,607 (R133), after every step. -/
def Obligations.OutputRangeKept : Prop :=
  ∀ s t : State, s.OutputInRange → step s = .next t → t.OutputInRange

/-- O12. Every step keeps R17: a reference count is the number of non-FREE voices playing the entry, and an entry with
a nonzero count is READY or RETIRING. -/
def Obligations.CountsKept : Prop :=
  ∀ s t : State, s.CountsHold → step s = .next t → t.CountsHold

/-- O13. Every step keeps the fetch queues, the ring slots and the outstanding reads in accord: no part waits or is
read twice, a part waits in a queue exactly while its slot marks it WAITING, and each slot counts its reads (R63, R64,
R69, R71, R88); every slot holds a chunk of its voice's window of eight, in that chunk's place (R62, R75); and every
entry of a queue has its slot's deadline and its part's read, on the lane of its voice's sample (R67, R69, R72). Each
of the first two is an invariant by itself, the third beside them and R17 (O12). -/
def Obligations.FetchKept : Prop :=
  (∀ s t : State, s.FetchSound → step s = .next t → t.FetchSound) ∧
    (∀ s t : State, s.WindowsHold → step s = .next t → t.WindowsHold) ∧
    ∀ s t : State, s.CountsHold → s.FetchSound → s.WindowsHold → s.QueuesPlaced → step s = .next t → t.QueuesPlaced

/-- O14. Only POWER_ON changes the identity (R148, R162), and only POWER_ON and CONFIGURE the partner and the
configuration (R150, R162, R168, R176). -/
def Obligations.IdentityKept : Prop :=
  ∀ (c : Instr) (s t : State), exec c s = .next t → (∀ memory present, c ≠ .powerOn memory present) →
    (t.port.station = s.port.station ∧ t.port.etherType = s.port.etherType ∧
      t.port.memoryStatus = s.port.memoryStatus) ∧
    (c ≠ .configure → t.port.partner = s.port.partner ∧ t.config = s.config)

/-! ### The link port -/

/-- O15. POWER_ON (R148, R102, R162): twelve bytes of address, EtherType of 0x0600 or above and matching check value
give the identity, whatever the memory holds behind them; a mismatch, an EtherType below 0x0600 and a memory that does
not answer give the defaults, and so does one that gives fewer than twelve bytes (the model's reading, log 26). The
lane of a module that is present is READY with a window begun, that of an absent one OFFLINE with none; every other
register takes its power-on value (O3). DRAM is not cleared (R19) and the free-value counter goes on (log 22). -/
def Obligations.PowerOn : Prop :=
  ∀ (present : PerLane Bool) (s : State),
    let lane (here : Bool) : Lane :=
      { state := if here then .ready else .offline, present := here, reads := [], errors := 0,
        window := if here then some 1000 else none, queue := [], primingList := [], segments := [],
        primingOutstanding := 0 }
    let begun (p : Port) : State :=
      { State.reset with
        port := p, headStore := s.headStore, ringStore := s.ringStore, freeCount := s.freeCount, pending := s.pending
        lanes := { lane0 := lane present.lane0, lane1 := lane present.lane1, lane2 := lane present.lane2,
                   lane3 := lane present.lane3 } }
    (∀ memory : Option (List Byte), (∀ bytes ∈ memory, bytes.length < 12) →
      exec (.powerOn memory present) s = .next (begun State.reset.port)) ∧
    ∀ (address etherType check : Nat) (more : List Byte), address < 2 ^ 48 → etherType < 65536 → check < 2 ^ 32 →
      let identity := toBE 6 address ++ toBE 2 etherType
      exec (.powerOn (some (identity ++ toBE 4 check ++ more)) present) s =
        if check = (crc32 identity).toNat ∧ 0x0600 ≤ etherType then
          .next (begun { State.reset.port with station := BitVec.ofNat 48 address,
                                               etherType := BitVec.ofNat 16 etherType, memoryStatus := .read })
        else .next (begun State.reset.port)

/-- O16. FRAME_RECEIVED: a frame with a bad check, more than 9,000 bytes, another destination or another type is
dropped without trace (R149); one that passes but is no CONFIGURE and not from the partner is dropped with
FOREIGN_SOURCE (R150). -/
def Obligations.FrameNotTaken : Prop :=
  (∀ (f : Frame) (s : State),
    f.checkOk = false ∨ 9000 < f.payload.length ∨ f.destination ≠ s.port.station ∨ f.etherType ≠ s.port.etherType →
    exec (.frameReceived f) s = .next s) ∧
  ∀ (f : Frame) (s : State),
    f.checkOk = true → 46 ≤ f.payload.length → f.payload.length ≤ 9000 → f.destination = s.port.station →
    f.etherType = s.port.etherType → headerKind f.payload ≠ 0x20 → s.port.partner ≠ some f.source →
    exec (.frameReceived f) s = .next { s with report := s.report.raise (.foreignSource f.source) }

/-- O17. The STREAM items that the port reads are those that the layouts of 8.10 spell, for every list of items and
every value that their fields hold, with any padding behind them (R151, R152). A message is read as items only then; it
is malformed with another version than 1 or a body longer than the payload (R151), and, whatever well-formed items come
first, with an item of a type that is not 1..5, with one whose length byte is not its layout's, with one that the body
breaks off, and with an item count that is not the number of its items (R152). -/
def Obligations.StreamCodec : Prop :=
  (∀ (items : List StreamItem) (number : Nat) (padding : List Byte),
    (∀ i ∈ items, itemFits i) → (items.flatMap itemBytes).length < 65536 →
    streamItems (message 0x10 number items.length (items.flatMap itemBytes) ++ padding) = some items) ∧
  ∀ payload : List Byte,
    let length := field payload 4 2
    let body := (payload.drop 8).take length
    let layouts : List (Nat × Nat) := [(1, 20), (2, 12), (3, 6), (4, 2), (5, 6)]
    (∀ items, streamItems payload = some items ↔
      field payload 0 1 = 1 ∧ 8 + length ≤ payload.length ∧ items.length = field payload 6 2 ∧
        (∀ i ∈ items, itemFits i) ∧ body = items.flatMap itemBytes) ∧
    (field payload 0 1 ≠ 1 ∨ payload.length < 8 + length → streamItems payload = none) ∧
    ∀ items : List StreamItem,
      (body = items.flatMap itemBytes → items.length ≠ field payload 6 2 → streamItems payload = none) ∧
      ∀ (type : Byte) (more : List Byte), body = items.flatMap itemBytes ++ type :: more →
        ((∀ n, (type.toNat, n) ∉ layouts) → streamItems payload = none) ∧
        ∀ n, (type.toNat, n) ∈ layouts → (more.head?.map BitVec.toNat ≠ some n ∨ more.length + 1 < n) →
          streamItems payload = none

/-- O18. FRAME_RECEIVED with a STREAM frame: a malformed one is counted and nothing else (R151, R152); a well-formed
one is split into its items in list order, a voice item joining the voice request queue or dropped with
INGRESS_OVERFLOW (R152), a tick handed on with its arrival time, joining the pending-tick list or dropped with
INGRESS_OVERFLOW (R153). -/
def Obligations.StreamTaken : Prop :=
  (∀ (f : Frame) (s : State), s.Admits f → headerKind f.payload = 0x10 →
    (streamItems f.payload = none →
      exec (.frameReceived f) s =
        .next { s with port := { s.port with malformed := min (s.port.malformed + 1) 65535 } }) ∧
    ∀ items, streamItems f.payload = some items →
      exec (.frameReceived f) s = .next (items.foldl State.acceptItem s)) ∧
  ∀ s : State,
    (∀ i, s.acceptItem (.voice i) =
      if s.port.voiceQueue.length < 256 then { s with port := { s.port with voiceQueue := s.port.voiceQueue ++ [i] } }
      else { s with report := s.report.raise (.ingressOverflow .voiceRequests) }) ∧
    ∀ n, s.acceptItem (.tick n) =
      if s.port.voiceQueue.length = 0 then
        { s with port := { s.port with handed := s.port.handed ++ [⟨n, s.cadence.clock⟩] } }
      else if s.port.pendingTicks.length < 16 then
        { s with port := { s.port with pendingTicks := s.port.pendingTicks ++ [⟨n, s.port.voiceQueue.length⟩] } }
      else { s with report := s.report.raise (.ingressOverflow .pendingTicks) }

/-- O19. FRAME_RECEIVED with a management message (R150, R151, R154; the layouts of 8.10): from the partner, or a
CONFIGURE from any source, the request joins the management queue with its header mark, or is dropped with
INGRESS_OVERFLOW when the queue holds 8. A kind below 0x20 or above 0x2E, or a version other than 1, is BAD_KIND; else
a body length above the payload less 8, or not the layout's for the item count, is BAD_LENGTH, as are items on a kind
of fixed length and a LOAD_ZONES whose record count is not the item count; every other message is unmarked. -/
def Obligations.RequestQueued : Prop :=
  ∀ (f : Frame) (s : State) (version kind number length items : Nat) (rest : List Byte),
    f.checkOk = true → f.destination = s.port.station → f.etherType = s.port.etherType →
    f.payload = toBE 1 version ++ toBE 1 kind ++ toBE 2 number ++ toBE 2 length ++ toBE 2 items ++ rest →
    46 ≤ f.payload.length → f.payload.length ≤ 9000 → version < 256 → kind < 256 → number < 65536 → length < 65536 →
    items < 65536 → kind ≠ 0x10 → (kind = 0x20 ∨ s.port.partner = some f.source) →
    let body := rest.take length
    let queued (mark : HeaderMark) : Prop := exec (.frameReceived f) s =
      if s.port.mgmtQueue.length < 8 then
        .next { s with port := { s.port with mgmtQueue := s.port.mgmtQueue ++ [⟨f.source, number, kind, mark, body⟩] } }
      else .next { s with report := s.report.raise (.ingressOverflow .management) }
    (kind < 0x20 ∨ 0x2E < kind ∨ version ≠ 1 → queued .badKind) ∧
    (0x20 ≤ kind → kind ≤ 0x2E → version = 1 →
      (rest.length < length → queued .badLength) ∧
      (length ≤ rest.length →
        (∀ fixed, (kind, fixed) ∈ [(0x20, 25), (0x21, 43), (0x22, 4), (0x23, 4), (0x24, 10), (0x26, 19), (0x27, 34),
            (0x28, 4), (0x2C, 0), (0x2D, 0), (0x2E, 0)] →
          queued (if items = 0 ∧ length = fixed then .unmarked else .badLength)) ∧
        (kind = 0x25 →
          queued (if length = 4 + 13 * items ∧ field body 2 2 = items then .unmarked else .badLength)) ∧
        (kind = 0x29 → queued (if length = 2 * items then .unmarked else .badLength)) ∧
        (kind = 0x2A ∨ kind = 0x2B → queued (if length = items then .unmarked else .badLength))))

/-- Fields of a message, each of a length in bytes, most significant byte first (00_scope.md, Message byte order). -/
def spelled (fields : List (Nat × Nat)) : List Byte :=
  fields.flatMap fun f => toBE f.1 f.2

/-- The 32 bits of a signed field. -/
def bits32 (v : Int) : Nat :=
  (BitVec.ofInt 32 v).toNat

/-- A yes/no or present field (8.10, Codes). -/
def yesField (b : Bool) : Nat × Nat :=
  (1, if b then 1 else 0)

/-- The number of a lane, 0..3. -/
def laneField (l : LaneId) : Nat × Nat :=
  (1, match l with
      | .lane0 => 0
      | .lane1 => 1
      | .lane2 => 2
      | .lane3 => 3)

/-- The code of a lane state (8.10). -/
def laneStateField (x : LaneState) : Nat × Nat :=
  (1, match x with
      | .ready => 0
      | .errored => 1
      | .offline => 2)

/-- The code of a cadence state (8.10). -/
def cadenceField (x : CadenceState) : Nat × Nat :=
  (1, match x with
      | .search => 0
      | .candidate => 1
      | .locked => 2
      | .holdover => 3
      | .lost => 4)

/-- The code of an end reason (8.10). -/
def reasonField (x : EndReason) : Nat × Nat :=
  (1, match x with
      | .endOfSample => 1
      | .released => 2
      | .stopped => 3
      | .stolen => 4
      | .quietTail => 5
      | .cancelled => 6
      | .cadence => 7
      | .noZone => 8
      | .notReady => 9
      | .sampleFaulted => 10
      | .laneOffline => 11
      | .voiceLimit => 12)

/-- The code of a reply status (8.10). -/
def statusField (x : ReplyStatus) : Nat × Nat :=
  (1, match x with
      | .ok => 0
      | .badKind => 1
      | .badLength => 2
      | .badField => 3
      | .badCurve => 4
      | .voicesActive => 5
      | .entryBusy => 6
      | .headRange => 7
      | .headOverlap => 8
      | .notFound => 9)

/-- The twenty event codes (10.1). -/
def eventCode : EventKind → Nat
  | .dropout => 1
  | .fetchLost => 2
  | .readError => 3
  | .laneState => 4
  | .lateStart => 5
  | .lateRelease => 6
  | .voiceStolen => 7
  | .startRefused => 8
  | .tagInUse => 9
  | .unknownTag => 10
  | .clip => 11
  | .cadenceState => 12
  | .cadenceShift => 13
  | .cadenceSevere => 14
  | .egressOverrun => 15
  | .ingressOverflow => 16
  | .endListOverflow => 17
  | .primeDone => 18
  | .linkState => 19
  | .foreignSource => 20

/-- The fields of the capture of each event (8.10, VOICE_END and NOTICE). -/
def captureSpelled : Capture → List (Nat × Nat)
  | .dropout tag period silent => [(4, tag.toNat), (4, period.toNat), (2, silent)]
  | .fetchLost tag lane chunk => [(4, tag.toNat), laneField lane, (4, chunk)]
  | .readError lane address cause =>
    [laneField lane, (6, address), (1, match cause with
                                       | .ecc => 1
                                       | .timeout => 2)]
  | .laneState lane old new => [laneField lane, laneStateField old, laneStateField new]
  | .lateStart tag requested actual => [(4, tag.toNat), (4, requested.toNat), (4, actual.toNat)]
  | .lateRelease tag requested actual => [(4, tag.toNat), (4, requested.toNat), (4, actual.toNat)]
  | .voiceStolen victim new => [(4, victim.toNat), (4, new.toNat)]
  | .startRefused tag reason => [(4, tag.toNat), reasonField reason]
  | .tagInUse tag => [(4, tag.toNat)]
  | .unknownTag tag item => [(4, tag.toNat), (1, match item with
                                                 | .release => 2
                                                 | .stop => 3)]
  | .clip tag period => [(4, tag.toNat), (4, period.toNat)]
  | .cadenceState old oldMarker new newMarker =>
    [cadenceField old, yesField oldMarker, cadenceField new, yesField newMarker]
  | .cadenceShift expected found => [(4, expected.toNat), (4, found.toNat)]
  | .cadenceSevere expected => [(4, expected.toNat)]
  | .egressOverrun period blocks => [(4, period.toNat), (2, blocks)]
  | .ingressOverflow queue => [(1, match queue with
                                   | .voiceRequests => 1
                                   | .management => 2
                                   | .pendingTicks => 3)]
  | .endListOverflow tag => [(4, tag.toNat)]
  | .primeDone handle result => [(4, handle), (1, match result with
                                                  | .ready => 0
                                                  | .read => 1
                                                  | .check => 2)]
  | .linkState up => [yesField up]
  | .foreignSource address => [(6, address.toNat)]

/-- The 13 bytes of an end record (8.10). -/
def endRecordSpelled (e : EndRecord) : List Byte :=
  spelled [(4, e.tag.toNat), reasonField e.reason, (4, e.frames), (2, e.dropouts), (2, e.clips)]

/-- The 16 bytes of an entry of a NOTICE: the capture's fields, then 0 up to 12 bytes (8.10). -/
def noticeSpelled (n : NoticeEntry) : List Byte :=
  let capture := spelled ((n.capture.map captureSpelled).getD [])
  spelled [(1, eventCode n.kind), yesField n.capture.isSome, (2, n.count)] ++ capture ++
    List.replicate (12 - capture.length) 0

/-- The 12 + 6P bytes of a block: tag, flags by their bits 0 to 7, valid frames, position, then P frames of three bytes
left and three bytes right (8.10, DATA). -/
def blockSpelled (b : Block) : List Byte :=
  let bit (i : Nat) (set : Bool) : Nat := if set then 2 ^ i else 0
  let flags := bit 0 b.flags.first + bit 1 b.flags.last + bit 2 b.flags.late + bit 3 b.flags.released +
    bit 4 b.flags.dropout + bit 5 b.flags.clipped + bit 6 b.flags.quietEnter + bit 7 b.flags.resume
  let bits24 (v : Int) : Nat := (BitVec.ofInt 24 v).toNat
  spelled [(4, b.tag.toNat), (2, flags), (2, b.valid), (4, bits32 b.position)] ++
    b.frames.flatMap fun f => spelled [(3, bits24 f.1), (3, bits24 f.2)]

/-- A message (8.10): version, kind, request number, body length and item count, then the body. -/
def messageSpelled (kind number items : Nat) (body : List Byte) : List Byte :=
  spelled [(1, 1), (1, kind), (2, number), (2, body.length), (2, items)] ++ body

/-- The payload of a control frame (R159, R163; 8.10). -/
def controlSpelled : ControlFrame → List Byte
  | .reply _ number kind a =>
    messageSpelled 0x43 number 0 (spelled [statusField a.status, (1, kind), (2, a.ordinal), (4, a.detail)] ++ a.result)
  | .notice entries => messageSpelled 0x42 0 entries.length (entries.flatMap noticeSpelled)
  | .voiceEnd records => messageSpelled 0x41 0 records.length (records.flatMap endRecordSpelled)

/-- The payload of a DATA frame (R156; 8.10). -/
def dataSpelled (f : DataFrame) : List Byte :=
  messageSpelled 0x40 0 f.blocks.length
    (spelled [(4, f.period.toNat), (2, f.blocks.length)] ++ f.blocks.flatMap blockSpelled)

/-- O20. TRANSMIT_FRAME (R156, R159, R160, R163, with the layouts of 8.10): the head of the control queue goes first, a
REPLY to its request's source and every other frame to the partner, or without destination where no partner is held
(the model's choice, log 31); then the oldest data frame, once closed; nothing goes with the link down. The payload is
the message header, with the request's own number in a REPLY and 0 in every other frame, and the body: a REPLY's 8
bytes and its result, end records of 13 bytes, NOTICE entries of 16 bytes with their captures, or the DATA header and
the blocks. The frame sent is what the wire last carried, a register of the model's own (log 23). -/
def Obligations.Transmit : Prop :=
  ∀ s : State,
    let wire (destination : Option StationAddress) (payload : List Byte) : Option WireFrame :=
      some { destination := destination, source := s.port.station, etherType := s.port.etherType, payload := payload }
    (s.port.linkUp = false → exec .transmitFrame s = .next s) ∧
    (s.port.linkUp = true →
      (∀ f rest, s.report.control = f :: rest →
        exec .transmitFrame s = .next
          { s with port := { s.port with
                             wire := wire (match f with
                                           | .reply source _ _ _ => some source
                                           | .notice _ => s.port.partner
                                           | .voiceEnd _ => s.port.partner) (controlSpelled f) },
                   report := { s.report with control := rest } }) ∧
      (s.report.control = [] →
        (∀ f rest, s.port.dataQueue = f :: rest → f.closed = true →
          exec .transmitFrame s = .next
            { s with port := { s.port with dataQueue := rest, wire := wire s.port.partner (dataSpelled f) } }) ∧
        ((∀ f ∈ s.port.dataQueue.head?, f.closed = false) → exec .transmitFrame s = .next s)))

/-- O21. The end list and the freed places. A record joins the tail of the list, or, with 256 in it, is dropped and
END_LIST_OVERFLOW is raised with its tag; the record that brings the list to 64 sends all 64 in one VOICE_END frame
where a place is free beside a held NOTICE's (R158; log 20); at a pass completion the list goes out from its head, 64
records a frame and the rest in the last, until it is empty or the places are (R158). NOTICE_HELD_QUEUED (R180) and
END_LIST_FLUSH_ON_ROOM (R155, R158): a place that is neither filled nor reserved goes to the held NOTICE, built from
the set as it stands or released when the set is empty; with 64 end records waiting and a place left beside a held
NOTICE's (log 20), one frame takes the first 64. Without a place, or a claim, nothing happens (the model's choice, log
1). -/
def Obligations.FreedPlace : Prop :=
  (∀ r : Report,
    let taken := r.control.length + (if r.busy = none then 0 else 1) + (if r.noticeHeld = true then 1 else 0)
    (∀ e : EndRecord,
      (256 ≤ r.endList.length → r.appendEnd e = r.raise (.endListOverflow e.tag)) ∧
      (r.endList.length = 63 → taken < 16 →
        r.appendEnd e = { r with control := r.control ++ [.voiceEnd (r.endList ++ [e])], endList := [] }) ∧
      (r.endList.length < 256 → r.endList.length ≠ 63 ∨ 16 ≤ taken →
        r.appendEnd e = { r with endList := r.endList ++ [e] })) ∧
    ∃ frames : List (List EndRecord),
      r.flushAll 16 = { r with control := r.control ++ frames.map ControlFrame.voiceEnd,
                               endList := r.endList.drop (64 * frames.length) } ∧
      frames.flatten = r.endList.take (64 * frames.length) ∧ (∀ f ∈ frames.dropLast, f.length = 64) ∧
      (∀ f ∈ frames, f ≠ [] ∧ f.length ≤ 64) ∧
      frames.length = min (16 - taken) ((r.endList.length + 63) / 64)) ∧
  ∀ s : State,
    let taken := s.report.control.length + (if s.report.busy = none then 0 else 1)
    let held := if s.report.noticeHeld = true then 1 else 0
    (s.report.noticeHeld = true → taken < 16 →
      exec .noticeHeldQueued s = .next
        { s with report := { s.report with
                             noticeHeld := false
                             control := s.report.control ++
                               (if s.report.noticeEntries = [] then [] else [.notice s.report.noticeEntries]) } }) ∧
    (s.report.noticeHeld = false ∨ 16 ≤ taken → exec .noticeHeldQueued s = .next s) ∧
    (64 ≤ s.report.endList.length → taken + held < 16 →
      exec .endListFlushOnRoom s = .next
        { s with report := { s.report with control := s.report.control ++ [.voiceEnd (s.report.endList.take 64)],
                                           endList := s.report.endList.drop 64 } }) ∧
    (s.report.endList.length < 64 ∨ 16 ≤ taken + held → exec .endListFlushOnRoom s = .next s)

/-- O22. LINK_DOWN (R160, R178, R181): the data queue is emptied, the control queue keeps its REPLY frames alone, and
LINK_STATE is recorded; when it newly enters the masked-pending set, or a NOTICE was held or discarded, one NOTICE of
the set as it then stands takes a freed place, and is held when the replies leave none (log 30). With an empty set
there is none to build: the control queue is the replies, and a NOTICE that was held stays held only while they leave
no place (log 30). Nothing else changes. LINK_UP (R161): the link is up and LINK_STATE is raised with up; the link is
down at power-on. -/
def Obligations.LinkChanges : Prop :=
  State.reset.port.linkUp = false ∧
  (∀ s : State, exec .linkUp s =
    .next { s with port := { s.port with linkUp := true }, report := s.report.raise (.linkState true) }) ∧
  ∀ s : State, ∃ r : Report,
    exec .linkDown s = .next { s with port := { s.port with linkUp := false, dataQueue := [] }, report := r } ∧
    r.endList = s.report.endList ∧ r.busy = s.report.busy ∧ r.reading = s.report.reading ∧
    (∀ k, r.event k = if k = .linkState then (s.report.event k).occur (some (.linkState false)) else s.report.event k) ∧
    let kept := s.report.control.filter ControlFrame.isReply
    let wanted := (s.report.event .linkState).entersOnOccur = true ∨ s.report.noticeHeld = true ∨
      ∃ f ∈ s.report.control, f.isNotice = true
    let room := kept.length + (if s.report.busy = none then 0 else 1) < 16
    (wanted → r.noticeEntries ≠ [] → room → r.control = kept ++ [.notice r.noticeEntries] ∧ r.noticeHeld = false) ∧
    (wanted → r.noticeEntries ≠ [] → ¬room → r.control = kept ∧ r.noticeHeld = true) ∧
    (r.noticeEntries = [] → r.control = kept ∧ (r.noticeHeld = true ↔ s.report.noticeHeld = true ∧ ¬room)) ∧
    (¬wanted → r.control = kept ∧ r.noticeHeld = false)

/-- O23. An occurrence (R178 to R180): the count rises, saturating; the first one sets the raw flag and its capture;
every other kind is as it was; and when an unmasked event newly enters the set, a NOTICE of the whole set fills a free
place, or is held. -/
def Obligations.Occurrence : Prop :=
  ∀ (r : Report) (c : Capture),
    let e := r.event c.kind
    let marked := r.putEvent c.kind
      { raw := true, masked := e.masked, pending := !e.masked, count := min (e.count + 1) 65535,
        capture := if e.raw then e.capture else some c }
    (∀ k, (r.raise c).event k = marked.event k ∧ (k ≠ c.kind → marked.event k = r.event k)) ∧
    (e.raw = true ∨ e.masked = true → r.raise c = marked) ∧
    (e.raw = false → e.masked = false → r.raise c =
      if r.noticeHeld then marked
      else if r.control.length + (if r.busy = none then 0 else 1) < 16 then
        { marked with control := r.control ++ [.notice marked.noticeEntries] }
      else { marked with noticeHeld := true })

/-! ### Voice requests -/

/-- The command that takes a voice item (R41). -/
def commandOf : VoiceItem → Instr
  | .start _ _ _ _ _ _ _ => .voiceStart
  | .release _ _ _ => .voiceRelease
  | .stop _ => .voiceStop
  | .stopAll => .stopAll

/-- The commands that take an unmarked management request, each with its kind (R165; 8.10, Codes). -/
def requestCommands : List (Instr × Nat) :=
  [(.configure, 0x20), (.loadSample, 0x21), (.retireSample, 0x22), (.querySample, 0x23), (.loadArticulation, 0x24),
   (.loadZones, 0x25), (.loadCurve, 0x26), (.loadMatrix, 0x27), (.queryVoice, 0x28), (.eventMask, 0x29),
   (.eventClear, 0x2A), (.eventSet, 0x2B), (.queryStatus, 0x2C), (.resync, 0x2D), (.reset, 0x2E)]

/-- O24. The two request queues. A voice request waits while a pass is under way (R41); when its item has been taken
(R153), every pending tick has one item less ahead of it, and the ticks at the head of the list that have none are
handed to the tracker in list order, at that time. A marked request is answered with its mark's status and has no other
effect (R166); a management command waits while the unit is BUSY, no place is free or another claim is on it (R155,
R164, log 20). Either queue's commands wait where it is empty, or has an item of another kind, or a request of another
kind or mark, at its head (the model's choice, log 1). -/
def Obligations.RequestQueues : Prop :=
  (∀ s : State, ∀ c ∈ [Instr.voiceStart, .voiceRelease, .voiceStop, .stopAll],
    (s.pass.isSome = true ∨ s.port.voiceQueue = [] → exec c s = .next s) ∧
    ∀ i rest, s.port.voiceQueue = i :: rest → c ≠ commandOf i → exec c s = .next s) ∧
  (∀ (p : Port) (clock : Nat) (ready later : List PendingTick), p.pendingTicks = ready ++ later →
    (∀ t ∈ ready, t.ahead ≤ 1) → (∀ t ∈ later.head?, 1 < t.ahead) →
    p.itemTaken clock = { p with pendingTicks := later.map fun t => ⟨t.index, t.ahead - 1⟩,
                                 handed := p.handed ++ ready.map fun t => ⟨t.index, clock⟩ }) ∧
  (∀ (s : State) (r : Request) (rest : List Request), s.Takes r rest →
    (r.mark = .badKind → exec .badRequestReply s = .next (s.answered r rest ⟨.badKind, 0, 0, []⟩)) ∧
    (r.mark = .badLength → exec .badRequestReply s = .next (s.answered r rest ⟨.badLength, 0, 0, []⟩))) ∧
  (∀ s : State,
    (s.port.mgmtQueue = [] ∨ s.report.busy.isSome = true ∨ s.report.noticeHeld = true ∨
      64 ≤ s.report.endList.length ∨ 16 ≤ s.report.control.length) →
    exec .badRequestReply s = .next s ∧ ∀ c ∈ requestCommands, exec c.1 s = .next s) ∧
  ∀ (s : State) (r : Request) (rest : List Request), s.port.mgmtQueue = r :: rest →
    (r.mark = .unmarked → exec .badRequestReply s = .next s) ∧
    ∀ c ∈ requestCommands, r.mark ≠ .unmarked ∨ r.kind ≠ c.2 → exec c.1 s = .next s

/-- O25. The first check of a start (R42): a tag already in the tag map. The start is ignored: TAG_IN_USE is raised
with the tag and nothing else changes but the queue the item left. -/
def Obligations.StartTagInUse : Prop :=
  ∀ (s : State) (tag : Tag) (articulation note velocity : Nat) (period : PeriodIndex) (offset source : Nat)
    (rest : List VoiceItem),
    s.TakesItem (.start tag articulation note velocity period offset source) rest → (∃ v, (tag, v) ∈ s.tagMap) →
    exec .voiceStart s =
      .next (State.dispatch { s with port := s.itemOff rest, report := s.report.raise (.tagInUse tag) })

/-- O26. Zone matching (R26): the zone chosen is the first of the run that contains the request and whose slot is the
cursor; where there is none, the first that contains it; none outside 0..4,095 or where no zone of the run does. -/
def Obligations.ZoneMatching : Prop :=
  ∀ (s : State) (articulation note velocity : Nat),
    let a := s.articulation articulation
    let fits (z : Nat) : Prop := (s.zone z).noteLow ≤ note ∧ note ≤ (s.zone z).noteHigh ∧
      (s.zone z).velocityLow ≤ velocity ∧ velocity ≤ (s.zone z).velocityHigh
    let first (p : Nat → Prop) (z : Nat) : Prop :=
      a.firstZone ≤ z ∧ z < a.firstZone + a.zoneCount ∧ p z ∧ ∀ w, a.firstZone ≤ w → w < z → ¬p w
    (4095 < articulation → s.chooseZone? articulation note velocity = none) ∧
    (articulation ≤ 4095 → ∀ z,
      s.chooseZone? articulation note velocity = some z ↔
        first (fun w => fits w ∧ (s.zone w).slot = a.cursor) z ∨
          ((∀ w, a.firstZone ≤ w → w < a.firstZone + a.zoneCount → ¬(fits w ∧ (s.zone w).slot = a.cursor)) ∧
            first fits z))

/-- O27. A start refused by the second to fifth check (R43, R44, R45, R47): its end record, of 0 frames and 0 blocks,
and START_REFUSED, with NO_ZONE, NOT_READY, SAMPLE_FAULTED, LANE_OFFLINE or VOICE_LIMIT; no table changes. -/
def Obligations.StartRefused : Prop :=
  ∀ (s : State) (tag : Tag) (articulation note velocity : Nat) (period : PeriodIndex) (offset source : Nat)
    (rest : List VoiceItem) (reason : EndReason),
    s.TakesItem (.start tag articulation note velocity period offset source) rest →
    (∀ row ∈ s.voices, row.2.tag ≠ tag) →
    (let zone := s.chooseZone? articulation note (min (max velocity 1) 127)
     (zone = none ∧ reason = .noZone) ∨
     ∃ z, zone = some z ∧
       ((s.entry? (s.zone z).handle = none ∧ reason = .notReady) ∨
        ∃ e, s.entry? (s.zone z).handle = some e ∧
          (((e.state = .priming ∨ e.state = .retiring) ∧ reason = .notReady) ∨
           (e.state = .faulted ∧ reason = .sampleFaulted) ∨
           (e.state = .ready ∧ (s.lane e.lane).state = .offline ∧ reason = .laneOffline) ∨
           (e.state = .ready ∧ (s.lane e.lane).state ≠ .offline ∧ s.config.voiceLimit ≤ s.voices.length ∧
             (∀ row ∈ s.voices, row.2.state = .pending ∨ row.2.state = .playing) ∧ reason = .voiceLimit)))) →
    exec .voiceStart s = .next (State.dispatch
      { s with port := s.itemOff rest,
               report := (s.report.appendEnd ⟨tag, reason, 0, 0, 0⟩).raise (.startRefused tag reason) })

/-- What R73 makes of slot `j` of record `v` when it takes chunk `k`, and R82 with a successor: QUEUED, its parts in
the queue of the sample's lane in part order, or, with that lane OFFLINE, LOST with FETCH_LOST (R70). -/
def chunkTaken (s : State) (v j : Nat) (x : Voice) (e : SampleEntry) (k : Nat) : State :=
  let parts := chunkParts x e k
  let deadline := x.startPeriod + BitVec.ofNat 32 ((x.offset + k * 1024) / s.config.period)
  let slot : Slot := { state := .queued, chunk := k, deadline := deadline, retryUsed := false,
                       marks := parts.map fun _ => .waiting, outstanding := 0, successor := none }
  if (s.lane e.lane).state = .offline then
    { s with slots := Table.insert s.slots (8 * v + j)
               { slot with state := .lost, marks := parts.map fun _ => .failed },
             report := s.report.raise (.fetchLost x.tag e.lane k) }
  else
    { s with slots := Table.insert s.slots (8 * v + j) slot,
             lanes := PerLane.set s.lanes e.lane
               { s.lane e.lane with
                 queue := (parts.zipIdx.map fun r =>
                   (⟨v, j, r.2, deadline, partAddress e r.1, partUnitCount e r.1⟩ : QueueEntry)).foldl queueInsert
                     (s.lane e.lane).queue } }

/-- The record that R48 writes for an accepted start. -/
def startRecord (s : State) (e : SampleEntry) (tag : Tag) (articulation z velocity : Nat) (period : PeriodIndex)
    (offset source : Nat) : Voice :=
  let o := min offset (s.config.period - 1)
  let a := if 1024 ≤ e.headFrames then min source (e.headFrames - 1024) else 0
  let looped := match e.loop with
    | none => false
    | some l => decide (a < l.stop)
  let h := match e.loop with
    | none => (e.headFrames - a) / 1024
    | some l => if a < l.stop then min ((e.headFrames - a) / 1024) ((l.stop - a) / 1024) else (e.headFrames - a) / 1024
  { state := .pending, tag := tag, startOrder := s.nextOrder, handle := (s.zone z).handle, zone := z,
    matrix := (s.zone z).matrix, gain := s.zoneGain (s.zone z) (min (max velocity 1) 127),
    releaseLength := (s.articulation articulation).releaseLength, startPeriod := period, offset := o,
    sourceOffset := a, loopInEffect := looped, headChunks := if e.headFrames = 0 then 0 else h, emit := -(o : Int),
    releasePoint := none, ramp := none, quietCount := 0, quiet := .audible, dropouts := 0, clips := 0, late := false }

/-- The rings and the lanes once the voice `x` of record `v` has its prefill (R49, R74) and, where its start period is
before the render horizon, has been made late (R50, R72). O52 says what the two operations do. -/
def startedRings (s : State) (v : Nat) (x : Voice) (e : SampleEntry) : State :=
  let filled := s.prefill v x e
  match s.cadence.horizon with
  | none => filled
  | some q => if isBefore x.startPeriod q then filled.shiftDeadlines v (q - x.startPeriod) else filled

/-- R27, R49: the articulations after a start of one of them. -/
def cursorAdvanced (s : State) (articulation i : Nat) : Articulation :=
  let a := s.articulation i
  if i = articulation ∧ 1 < a.roundRobinCount then { a with cursor := (a.cursor + 1) % a.roundRobinCount } else a

/-- R17, R57: an entry when a voice that played it has ended. -/
def uncounted (e : SampleEntry) : Option SampleEntry :=
  if e.state = .retiring ∧ e.refCount ≤ 1 then none else some { e with refCount := e.refCount - 1 }

/-- What the end of the voice `x` of record `v` leaves of `s` but for the reports, the port and the pass (R57, R81). -/
def Ended (s u : State) (v : Nat) (x : Voice) : Prop :=
  u.voice? v = none ∧ (∀ w, w ≠ v → u.voice? w = s.voice? w) ∧
    u.slots = (s.cancelRing v).slots ∧ u.lanes = (s.cancelRing v).lanes ∧
    (∀ g, u.entry? g = if g = x.handle then (s.entry? g).bind uncounted else s.entry? g) ∧
    u.library.articulations = s.library.articulations ∧ u.library.zones = s.library.zones ∧
    u.library.curves = s.library.curves ∧ u.library.matrices = s.library.matrices ∧ u.cadence = s.cadence ∧
    u.config = s.config ∧ u.nextOrder = s.nextOrder ∧ u.headStore = s.headStore ∧ u.ringStore = s.ringStore ∧
    u.freeCount = s.freeCount

/-- O28. A start accepted into a FREE record (R44, R48 to R50, with R17, R27, R40, R72, R74): the lowest FREE record
takes the new voice, made late where its period is before the render horizon; the sample's count and the start-order
counter rise by one, the cursor advances, the ring is prefilled, its deadlines moved for a late start, and the lanes
dispatch when all this is done (the model's choice, log 11); no other voice, entry, articulation or register changes.
-/
def Obligations.StartAccepted : Prop :=
  ∀ (s : State) (tag : Tag) (articulation note velocity : Nat) (period : PeriodIndex) (offset source : Nat)
    (rest : List VoiceItem) (z : Nat) (e : SampleEntry),
    s.TakesItem (.start tag articulation note velocity period offset source) rest → Table.Rising s.voices →
    (∀ row ∈ s.voices, row.2.tag ≠ tag) →
    s.chooseZone? articulation note (min (max velocity 1) 127) = some z → s.entry? (s.zone z).handle = some e →
    e.state = .ready → (s.lane e.lane).state ≠ .offline → s.voices.length < s.config.voiceLimit →
    let x := startRecord s e tag articulation z velocity period offset source
    ∃ (u : State) (v : Nat), exec .voiceStart s = .next u.dispatch ∧
      (s.voice? v = none ∧ ∀ w < v, (s.voice? w).isSome = true) ∧
      (∀ w, w ≠ v → u.voice? w = s.voice? w) ∧
      (match s.cadence.horizon with
       | none => u.voice? v = some x ∧ u.report = s.report
       | some q =>
         if isBefore period q then
           u.voice? v = some { x with startPeriod := q, late := true } ∧
             u.report = s.report.raise (.lateStart tag period q)
         else u.voice? v = some x ∧ u.report = s.report) ∧
      u.nextOrder = s.nextOrder + 1 ∧
      (∀ g, u.entry? g = if g = (s.zone z).handle then some { e with refCount := e.refCount + 1 } else s.entry? g) ∧
      (∀ i, u.articulation i = cursorAdvanced s articulation i) ∧
      u.slots = (startedRings s v x e).slots ∧ u.lanes = (startedRings s v x e).lanes ∧
      (u.port = s.itemOff rest ∧ u.library.zones = s.library.zones ∧ u.library.curves = s.library.curves ∧
        u.library.matrices = s.library.matrices ∧ u.cadence = s.cadence ∧ u.pass = s.pass ∧ u.config = s.config ∧
        u.headStore = s.headStore ∧ u.ringStore = s.ringStore ∧ u.freeCount = s.freeCount)

/-- O29. A start that steals (R45, R46, with R17, R57, R81): with V voices non-FREE, the RELEASING or STOPPING voice of
the lowest current effective gain, the earliest start order among equals, ends STOLEN, its count falls and its ring is
cancelled; VOICE_STOLEN is raised, and the new voice takes its record, made late where its period is before the render
horizon, its prefill asked of the slots that the cancellation left; the lanes dispatch when all this is done (the
model's choice, log 11); no other voice changes. -/
def Obligations.StartSteals : Prop :=
  ∀ (s : State) (tag : Tag) (articulation note velocity : Nat) (period : PeriodIndex) (offset source : Nat)
    (rest : List VoiceItem) (z : Nat) (e : SampleEntry) (v : Nat) (victim : Voice),
    s.TakesItem (.start tag articulation note velocity period offset source) rest → Table.Rising s.voices →
    (∀ row ∈ s.voices, row.2.tag ≠ tag) →
    s.chooseZone? articulation note (min (max velocity 1) 127) = some z → s.entry? (s.zone z).handle = some e →
    e.state = .ready → (s.lane e.lane).state ≠ .offline → s.config.voiceLimit ≤ s.voices.length →
    s.voice? v = some victim → (victim.state = .releasing ∨ victim.state = .stopping) →
    (∀ w x, s.voice? w = some x → w ≠ v → (x.state = .releasing ∨ x.state = .stopping) →
      victim.currentGain < x.currentGain ∨
        (victim.currentGain = x.currentGain ∧ isBefore victim.startOrder x.startOrder = true)) →
    let x := startRecord s e tag articulation z velocity period offset source
    let stolen := (s.report.appendEnd ⟨victim.tag, .stolen, min victim.emit.toNat 4294967295, victim.dropouts,
      victim.clips⟩).raise (.voiceStolen victim.tag tag)
    let left (g : Nat) : Option SampleEntry :=
      if g = victim.handle then (s.entry? g).bind uncounted else s.entry? g
    ∃ u : State, exec .voiceStart s = .next u.dispatch ∧
      (match s.cadence.horizon with
       | none => u.voice? v = some x ∧ u.report = stolen
       | some q =>
         if isBefore period q then
           u.voice? v = some { x with startPeriod := q, late := true } ∧
             u.report = stolen.raise (.lateStart tag period q)
         else u.voice? v = some x ∧ u.report = stolen) ∧
      (∀ w, w ≠ v → u.voice? w = s.voice? w) ∧ u.nextOrder = s.nextOrder + 1 ∧
      (∀ g, u.entry? g =
        if g = (s.zone z).handle then (left g).map fun f => { f with refCount := f.refCount + 1 } else left g) ∧
      (∀ i, u.articulation i = cursorAdvanced s articulation i) ∧
      u.slots = (startedRings (s.cancelRing v) v x e).slots ∧ u.lanes = (startedRings (s.cancelRing v) v x e).lanes ∧
      (u.port = s.itemOff rest ∧ u.library.zones = s.library.zones ∧ u.library.curves = s.library.curves ∧
        u.library.matrices = s.library.matrices ∧ u.cadence = s.cadence ∧ u.pass = s.pass ∧ u.config = s.config ∧
        u.headStore = s.headStore ∧ u.ringStore = s.ringStore ∧ u.freeCount = s.freeCount)

/-- O30. VOICE_RELEASE (R52 to R54). An absent tag raises UNKNOWN_TAG; a RELEASING or STOPPING voice ignores it; for a
PENDING or PLAYING voice the release stream position, that of the render horizon with LATE_RELEASE when the period is
before it, ends a PENDING voice CANCELLED when it is at most 0, its count falling and its ring cancelled (R57, R81),
and is otherwise the pending release point. For a PLAYING voice too the position is what R52's and R53's formulas give,
and negative where their signed difference is, 2^31 periods after the start and later, late or not (the model's choice,
log 36). The lanes dispatch at the end (the model's choice, log 11). -/
def Obligations.Release : Prop :=
  ∀ (s : State) (tag : Tag) (period : PeriodIndex) (offset : Nat) (rest : List VoiceItem),
    s.TakesItem (.release tag period offset) rest → s.TagsDistinct →
    ((∀ row ∈ s.voices, row.2.tag ≠ tag) → exec .voiceRelease s = .next (State.dispatch
      { s with port := s.itemOff rest, report := s.report.raise (.unknownTag tag .release) })) ∧
    ∀ v x, s.voice? v = some x → x.tag = tag →
      ((x.state = .releasing ∨ x.state = .stopping) →
        exec .voiceRelease s = .next (State.dispatch { s with port := s.itemOff rest })) ∧
      ((x.state = .pending ∨ x.state = .playing) → ∀ (report : Report) (position : Int),
        (match s.cadence.horizon with
         | none => False
         | some q => isBefore period q = true ∧ report = s.report.raise (.lateRelease tag period q) ∧
             position = periodDiff q x.startPeriod * s.config.period - x.offset) ∨
        ((∀ q ∈ s.cadence.horizon, isBefore period q = false) ∧ report = s.report ∧
          position = periodDiff period x.startPeriod * s.config.period +
            (((min offset (s.config.period - 1) : Nat) : Int) - x.offset)) →
        (x.state = .pending ∧ position ≤ 0 →
          ∃ u : State, exec .voiceRelease s = .next u.dispatch ∧ Ended s u v x ∧
            u.report = report.appendEnd ⟨tag, .cancelled, min x.emit.toNat 4294967295, x.dropouts, x.clips⟩ ∧
            u.port = s.itemOff rest ∧ u.pass = s.pass) ∧
        (¬(x.state = .pending ∧ position ≤ 0) →
          exec .voiceRelease s = .next (State.dispatch
            { s with port := s.itemOff rest, report := report,
                     voices := Table.insert s.voices v { x with releasePoint := some position } })))

/-- R55: what a stop makes of a voice that is PLAYING or RELEASING. -/
def stoppedRecord (x : Voice) : Voice :=
  { x with state := .stopping, releasePoint := none,
           ramp := some { kind := .stop, start := x.emit, level := rampLevel x.ramp x.emit, length := 64 } }

/-- O31. VOICE_STOP (R55). An absent tag raises UNKNOWN_TAG; a PENDING voice ends CANCELLED, its count falling and its
ring cancelled (R57, R81); a PLAYING or RELEASING voice becomes STOPPING with a ramp of 64 frames from the level in
effect at its emit position, its release point removed; a STOPPING voice ignores it. The lanes dispatch at the end (the
model's choice, log 11). -/
def Obligations.Stop : Prop :=
  ∀ (s : State) (tag : Tag) (rest : List VoiceItem), s.TakesItem (.stop tag) rest → s.TagsDistinct →
    ((∀ row ∈ s.voices, row.2.tag ≠ tag) → exec .voiceStop s = .next (State.dispatch
      { s with port := s.itemOff rest, report := s.report.raise (.unknownTag tag .stop) })) ∧
    ∀ v x, s.voice? v = some x → x.tag = tag →
      (x.state = .stopping → exec .voiceStop s = .next (State.dispatch { s with port := s.itemOff rest })) ∧
      ((x.state = .playing ∨ x.state = .releasing) →
        exec .voiceStop s = .next (State.dispatch
          { s with port := s.itemOff rest, voices := Table.insert s.voices v (stoppedRecord x) })) ∧
      (x.state = .pending → ∃ u : State, exec .voiceStop s = .next u.dispatch ∧ Ended s u v x ∧
        u.report = s.report.appendEnd ⟨tag, .cancelled, min x.emit.toNat 4294967295, x.dropouts, x.clips⟩ ∧
        u.port = s.itemOff rest ∧ u.pass = s.pass)

/-- O32. STOP_ALL (R56): every PENDING voice ends CANCELLED, its record appended, its count falling and its ring
cancelled in record index order (R57, R81), every PLAYING and RELEASING voice becomes STOPPING from its own level, and
every STOPPING voice is left; the lanes dispatch when all this is done (the model's choice, log 11). -/
def Obligations.StopAll : Prop :=
  ∀ (s : State) (rest : List VoiceItem), s.TakesItem .stopAll rest → Table.Rising s.voices →
    let ended := s.voices.filter fun row => row.2.state == .pending
    let cancelled := ended.foldl (fun r row => r.cancelRing row.1) s
    ∃ u : State, exec .stopAll s = .next u.dispatch ∧
      (∀ v, u.voice? v = match s.voice? v with
        | none => none
        | some x =>
          match x.state with
          | .pending => none
          | .playing => some (stoppedRecord x)
          | .releasing => some (stoppedRecord x)
          | .stopping => some x) ∧
      u.report = ended.foldl
        (fun r row => r.appendEnd
          ⟨row.2.tag, .cancelled, min row.2.emit.toNat 4294967295, row.2.dropouts, row.2.clips⟩) s.report ∧
      u.slots = cancelled.slots ∧ u.lanes = cancelled.lanes ∧
      (∀ g, u.entry? g =
        (ended.filter fun row => row.2.handle == g).foldl (fun f _ => f.bind uncounted) (s.entry? g)) ∧
      u.library.articulations = s.library.articulations ∧ u.library.zones = s.library.zones ∧
      u.library.curves = s.library.curves ∧ u.library.matrices = s.library.matrices ∧
      u.port = s.itemOff rest ∧ u.cadence = s.cadence ∧ u.pass = s.pass ∧ u.config = s.config ∧
      u.nextOrder = s.nextOrder ∧ u.headStore = s.headStore ∧ u.ringStore = s.ringStore ∧ u.freeCount = s.freeCount

/-- O33. Curve gain and voice gain (R30, R31): on every segment that holds the velocity, the curve gain is the exact
interpolation truncated toward zero, and it lies between the segment's gains; G is the rescaled product, rounded half
up and limited to 65,535; a trim of 32,768 passes the curve gain through and a trim of 0 gives 0. The gain that a
start's voice keeps (O28) is that of its zone's curve and trim. -/
def Obligations.Gains : Prop :=
  (∀ (c : Curve) (velocity : Nat), curveRises c = true → 1 ≤ velocity → velocity ≤ 127 →
    ∀ p q, (p, q) ∈ [(c.p0, c.p1), (c.p1, c.p2), (c.p2, c.p3), (c.p3, c.p4), (c.p4, c.p5)] →
      p.velocity ≤ velocity → velocity ≤ q.velocity →
      (c.gainAt velocity : Int) =
        p.gain + (((q.gain : Int) - p.gain) * ((velocity : Int) - p.velocity)).tdiv ((q.velocity : Int) - p.velocity) ∧
      min p.gain q.gain ≤ c.gainAt velocity ∧ c.gainAt velocity ≤ max p.gain q.gain) ∧
  (∀ gain trim : Nat, gain ≤ 65535 → trim ≤ 65535 →
    voiceGain gain trim = min 65535 ((gain * trim + 16384) / 32768) ∧ (gain * trim + 16384) / 32768 ≤ 131068 ∧
      voiceGain gain 32768 = gain ∧ voiceGain gain 0 = 0) ∧
  ∀ (s : State) (z : Zone) (velocity : Nat),
    s.zoneGain z velocity = voiceGain ((s.curve z.curve).gainAt velocity) z.trim

/-! ### Cadence and render -/

/-- R112: an expiry of the timer that still waits is discarded when the timer is armed or stopped; the ticks stay. -/
def ticksAlone (waiting : List Waiting) : List Waiting :=
  waiting.filter fun i => match i with
                          | .tick _ _ => true
                          | .expiry _ => false

/-- R106, R112, R116, R118: the tracker when a pass is opened at a time: its last opening, the timer armed `wait`
frames later, and the opening counted in both windows, which ends one that it fills. -/
def passOpened (c : Cadence) (errorWindow opening wait : Nat) : Cadence :=
  { c with lastOpening := opening, clock := opening, timer := some (opening + wait), waiting := ticksAlone c.waiting
           errorOpenings := if errorWindow ≤ c.errorOpenings + 1 then 0 else c.errorOpenings + 1
           errorCount := if errorWindow ≤ c.errorOpenings + 1 then 0 else c.errorCount
           severeOpenings := if 8 ≤ c.severeOpenings + 1 then 0 else c.severeOpenings + 1
           severeCount := if 8 ≤ c.severeOpenings + 1 then 0 else c.severeCount
           severeRaised := if 8 ≤ c.severeOpenings + 1 then false else c.severeRaised }

/-- R108, R116, R118: the tracker LOCKED at a tick by a lock, both windows beginning with the opening of the pass for
period `q` at this time (R106, R112). -/
def lockedAt (c : Cadence) (config : Configuration) (n q : PeriodIndex) (opening : Nat) : Cadence :=
  passOpened
    { c with state := .locked, misaligned := false, candidate := none, lastTick := some n, horizon := some q,
             missed := 0, errorOpenings := 0, errorCount := 0, severeOpenings := 0, severeCount := 0,
             severeRaised := false, limitDue := false }
    config.errorWindow opening (config.period + config.tolerance)

/-- R116, R118: a tick error counted in both windows: the M-th is to be acted on, the second of a severe window raises
its mark. -/
def errorCounted (c : Cadence) (errorLimit : Nat) : Cadence :=
  { c with errorCount := min (c.errorCount + 1) 65535, severeCount := min (c.severeCount + 1) 65535,
           severeRaised := c.severeRaised || decide (c.severeCount + 1 = 2),
           limitDue := c.limitDue || decide (c.errorCount + 1 = errorLimit) }

/-- R118: the reports after that tick error: CADENCE_SEVERE, with the expected index, when the mark is newly raised. -/
def severeTold (s : State) (expected : PeriodIndex) : Report :=
  if s.cadence.severeCount + 1 = 2 ∧ s.cadence.severeRaised = false then s.report.raise (.cadenceSevere expected)
  else s.report

/-- R57, R60: the reports when every voice of `s` ends CADENCE, in record index order. -/
def endedTold (s : State) (before : Report) : Report :=
  s.voices.foldl
    (fun r row => r.appendEnd
      ⟨row.2.tag, .cadence, min row.2.emit.toNat 4294967295, row.2.dropouts, row.2.clips⟩) before

/-- R57, R60, R81: every voice FREE, the counts of the entries fallen and the rings cancelled, in record index order;
what this leaves of `s` but for the reports, the port, the tracker and the pass. -/
def AllEnded (s u : State) : Prop :=
  let cancelled := s.voices.foldl (fun r row => r.cancelRing row.1) s
  u.voices = [] ∧ u.slots = cancelled.slots ∧ u.lanes = cancelled.lanes ∧
    (∀ g, u.entry? g =
      (s.voices.filter fun row => row.2.handle == g).foldl (fun f _ => f.bind uncounted) (s.entry? g)) ∧
    u.library.articulations = s.library.articulations ∧ u.library.zones = s.library.zones ∧
    u.library.curves = s.library.curves ∧ u.library.matrices = s.library.matrices ∧ u.config = s.config ∧
    u.nextOrder = s.nextOrder ∧ u.headStore = s.headStore ∧ u.ringStore = s.ringStore ∧ u.freeCount = s.freeCount

/-- O34. A tick in SEARCH or LOST (R105, R107, R115): it becomes the candidate with its arrival time, CADENCE_STATE is
raised with the state and CANDIDATE, no pass is opened and no tick error counted. `elapsed` frames of the local clock
have passed since the last step (log 3). -/
def Obligations.SearchTick : Prop :=
  ∀ (s : State) (n : PeriodIndex) (arrival : Nat) (rest : List HandedTick) (elapsed : Nat),
    s.TakesTick n arrival rest → (s.cadence.state = .search ∨ s.cadence.state = .lost) →
    exec (.tick elapsed) s = .next (State.dispatch
      { s with port := { s.port with handed := rest },
               cadence := { s.cadence with clock := s.cadence.later elapsed, lastTick := some n, state := .candidate,
                                           candidate := some { index := n, arrival := arrival } },
               report := s.report.raise
                 (.cadenceState s.cadence.state s.cadence.misaligned .candidate s.cadence.misaligned) })

/-- O35. A tick in CANDIDATE (R51, R72, R106, R108, R109, R120). The index after the candidate's, P - J to P + J frames
after it, with the render horizon undefined, is a first lock: LOCKED, CADENCE_STATE with CANDIDATE and LOCKED, each
with its marker; the horizon is n + L; every PENDING voice that starts before it is made late, in record index order:
its start period moved to the horizon, LATE_START raised, its slots' deadlines moved and its waiting parts placed
again; then the pass of the horizon is opened and begins (O45; the tracker's events first, log 17), the timer is armed
P + J after the opening and the windows begin with this opening; the lanes dispatch when all this is done (the model's
choice, log 11). Any other tick replaces the candidate and raises nothing. A tick that opens a pass while a
QUERY_STATUS is being read: O57. `elapsed` is log 3's. -/
def Obligations.CandidateTick : Prop :=
  ∀ (s : State) (n : PeriodIndex) (arrival : Nat) (rest : List HandedTick) (elapsed : Nat) (c : Candidate),
    s.TakesTick n arrival rest → s.cadence.state = .candidate → s.cadence.candidate = some c →
    let opening := s.cadence.later elapsed
    let since := (arrival : Int) - c.arrival
    let good := n = c.index + 1 ∧ (s.config.period : Int) - s.config.tolerance ≤ since ∧
      since ≤ (s.config.period : Int) + s.config.tolerance
    (good → s.cadence.horizon = none → s.NoneRead → Table.Rising s.voices →
      let q := n + BitVec.ofNat 32 s.config.lead
      let late := s.voices.filter fun row => row.2.state == .pending && isBefore row.2.startPeriod q
      let moved := late.foldl (fun r row => r.shiftDeadlines row.1 (q - row.2.startPeriod)) s
      let raised := s.report.raise (.cadenceState .candidate s.cadence.misaligned .locked false)
      let cadence := lockedAt s.cadence s.config n q opening
      ∃ (u : State) (p : Pass),
        u = { s with port := { s.port with handed := rest }, voices := u.voices, slots := moved.slots,
                     lanes := moved.lanes, cadence := cadence, pass := some ⟨q, 0, [], 0⟩,
                     report := late.foldl
                       (fun r row => r.raise (.lateStart row.2.tag row.2.startPeriod q)) raised } ∧
        (∀ v, u.voice? v = (s.voice? v).map fun x =>
          if x.state = .pending ∧ isBefore x.startPeriod q = true then { x with startPeriod := q, late := true }
          else x) ∧
        let t := State.dispatch (u.beginPass q)
        exec (.tick elapsed) s = .next t ∧ t.pass = some p ∧ p.period = q ∧ t.cadence = cadence ∧
        t.report.event .cadenceState = (s.report.event .cadenceState).occur
          (some (.cadenceState .candidate s.cadence.misaligned .locked false)) ∧
        t.config = s.config ∧ t.nextOrder = s.nextOrder ∧ t.headStore = s.headStore ∧ t.ringStore = s.ringStore) ∧
    (¬good → exec (.tick elapsed) s = .next (State.dispatch
      { s with port := { s.port with handed := rest },
               cadence := { s.cadence with clock := opening, lastTick := some n,
                                           candidate := some { index := n, arrival := arrival } } }))

/-- O36. A relock (R57, R60, R81, R106, R108, R110, R120): LOCKED, CADENCE_STATE with CANDIDATE and LOCKED, each with
its marker. At the expected index the pass of the kept render horizon is opened. At any other index CADENCE_SHIFT is
raised with both indices, every voice ends CADENCE, in record index order, its end record appended, its count falling
and its ring cancelled, the render horizon becomes n + L and the pass opened is that one. The pass opened begins (O45;
the tracker's events first, log 17), and the lanes dispatch when all this is done (the model's choice, log 11). While
a QUERY_STATUS is being read: O57. `elapsed` is log 3's. -/
def Obligations.Relock : Prop :=
  ∀ (s : State) (n q : PeriodIndex) (arrival : Nat) (rest : List HandedTick) (elapsed : Nat) (c : Candidate),
    s.TakesTick n arrival rest → s.cadence.state = .candidate → s.cadence.candidate = some c →
    s.cadence.horizon = some q → s.NoneRead → n = c.index + 1 →
    (s.config.period : Int) - s.config.tolerance ≤ (arrival : Int) - c.arrival →
    (arrival : Int) - c.arrival ≤ (s.config.period : Int) + s.config.tolerance →
    let opening := s.cadence.later elapsed
    let expected := q - BitVec.ofNat 32 s.config.lead
    let raised := s.report.raise (.cadenceState .candidate s.cadence.misaligned .locked false)
    let port : Port := { s.port with handed := rest }
    let opened (u : State) (r : PeriodIndex) : Prop := ∃ p : Pass,
      let t := State.dispatch (u.beginPass r)
      exec (.tick elapsed) s = .next t ∧ t.pass = some p ∧ p.period = r ∧
      t.cadence = lockedAt s.cadence s.config n r opening ∧
      t.report.event .cadenceState = (s.report.event .cadenceState).occur
        (some (.cadenceState .candidate s.cadence.misaligned .locked false)) ∧
      t.config = s.config ∧ t.nextOrder = s.nextOrder ∧ t.headStore = s.headStore ∧ t.ringStore = s.ringStore
    (n = expected →
      let u : State := { s with port := port, cadence := lockedAt s.cadence s.config n q opening,
                                pass := some ⟨q, 0, [], 0⟩, report := raised }
      opened u q ∧
        (State.dispatch (u.beginPass q)).report.event .cadenceShift = s.report.event .cadenceShift) ∧
    (n ≠ expected → Table.Rising s.voices →
      let r := n + BitVec.ofNat 32 s.config.lead
      ∃ u : State, AllEnded s u ∧ u.port = port ∧ u.cadence = lockedAt s.cadence s.config n r opening ∧
        u.pass = some ⟨r, 0, [], 0⟩ ∧ u.report = endedTold s (raised.raise (.cadenceShift expected n)) ∧
        opened u r ∧ (∀ v, (State.dispatch (u.beginPass r)).voice? v = none) ∧
        (State.dispatch (u.beginPass r)).report.event .cadenceShift =
          (s.report.event .cadenceShift).occur (some (.cadenceShift expected n)))

/-- O37. A tick in LOCKED or HOLDOVER (R106, R111, R113, R116 to R118, R120). The expected index opens the pass of the
render horizon and leaves the tracker LOCKED with no tick missed, from HOLDOVER with CADENCE_STATE, the marker kept:
GOOD within the arrival window, EARLY and a tick error outside it. The pass opened begins (O45; the tracker's events
first, log 17), and the lanes dispatch when all this is done (the model's choice, log 11). An index before or after it
is a tick error and opens nothing. A tick error counts in both windows; the second of a severe window raises
CADENCE_SEVERE, once; the M-th of an error window is acted on when the pass it opened has completed, or, with none
opened, at once: with automatic relock on the tracker enters SEARCH, the render horizon kept, and with it off the
misaligned marker is set. An opening that fills a window ends it, and the next begins with nothing counted. An
opening while a QUERY_STATUS is being read: O57. `elapsed` is log 3's. -/
def Obligations.RunningTick : Prop :=
  ∀ (s : State) (n q : PeriodIndex) (arrival : Nat) (rest : List HandedTick) (elapsed : Nat),
    s.TakesTick n arrival rest → (s.cadence.state = .locked ∨ s.cadence.state = .holdover) →
    s.cadence.horizon = some q →
    let expected := q - BitVec.ofNat 32 s.config.lead
    let opening := s.cadence.later elapsed
    let since := (arrival : Int) - s.cadence.lastOpening
    let inTime := (s.config.period : Int) - s.config.tolerance ≤ since ∧
      since ≤ (s.config.period : Int) + s.config.tolerance
    let taken : Cadence := { s.cadence with clock := opening, lastTick := some n }
    let port : Port := { s.port with handed := rest }
    let severe := if s.cadence.severeCount + 1 = 2 ∧ s.cadence.severeRaised = false then
        (s.report.event .cadenceSevere).occur (some (.cadenceSevere expected))
      else s.report.event .cadenceSevere
    (n = expected → s.NoneRead →
      let judged : Cadence := if inTime then taken else errorCounted taken s.config.errorLimit
      let told := if inTime then s.report else severeTold s expected
      let cadence : Cadence := passOpened { judged with state := .locked, missed := 0 } s.config.errorWindow opening
        (s.config.period + s.config.tolerance)
      let u : State := { s with
        port := port, cadence := cadence, pass := some ⟨q, 0, [], 0⟩
        report := if s.cadence.state = .holdover then
            told.raise (.cadenceState .holdover s.cadence.misaligned .locked s.cadence.misaligned)
          else told }
      let t := State.dispatch (u.beginPass q)
      ∃ p : Pass, exec (.tick elapsed) s = .next t ∧ t.pass = some p ∧ p.period = q ∧ t.cadence = cadence ∧
        t.report.event .cadenceState = (if s.cadence.state = .holdover then
            (s.report.event .cadenceState).occur
              (some (.cadenceState .holdover s.cadence.misaligned .locked s.cadence.misaligned))
          else s.report.event .cadenceState) ∧
        t.report.event .cadenceSevere = (if inTime then s.report.event .cadenceSevere else severe) ∧
        t.config = s.config ∧ t.nextOrder = s.nextOrder ∧ t.headStore = s.headStore ∧ t.ringStore = s.ringStore) ∧
    ((isBefore n expected = true ∨ isBefore expected n = true) →
      let erred : Cadence := errorCounted taken s.config.errorLimit
      let told := severeTold s expected
      let after (cadence : Cadence) (report : Report) : Prop :=
        exec (.tick elapsed) s = .next (State.dispatch { s with port := port, cadence := cadence, report := report }) ∧
          report.event .cadenceSevere = severe
      (s.cadence.errorCount + 1 ≠ s.config.errorLimit → after erred told) ∧
      (s.cadence.errorCount + 1 = s.config.errorLimit → s.config.autoRelock = true →
        after
          { erred with state := .search, misaligned := false, timer := none, missed := 0, errorOpenings := 0,
                       errorCount := 0, severeOpenings := 0, severeCount := 0, severeRaised := false,
                       limitDue := false, waiting := ticksAlone s.cadence.waiting }
          (told.raise (.cadenceState s.cadence.state s.cadence.misaligned .search false))) ∧
      (s.cadence.errorCount + 1 = s.config.errorLimit → s.config.autoRelock = false →
        after { erred with misaligned := true, limitDue := false }
          (if s.cadence.misaligned = true then told
           else told.raise (.cadenceState s.cadence.state false s.cadence.state true))))

/-- O38. A tick that reaches the tracker while a pass is under way (R105) joins the waiting list with its arrival time;
with 16 ticks waiting it is dropped, a tick error in LOCKED and HOLDOVER (R116, R118): counted in both windows, the
M-th of an error window marked to be acted on when the pass completes, the second of a severe window raising
CADENCE_SEVERE, once; and nothing in the other states. The limit M and the lead are those the tracker runs under, which
a CONFIGURE accepted in the pass does not yet change: R168 has "the cadence parameters from the tracker's reset on"
(the model's reading, log 29). A tick that the timer expires before, or, in HOLDOVER, at the same time, waits for that
expiry, pass or none (R112, R113; log 1). `elapsed` is log 3's. -/
def Obligations.TickWaits : Prop :=
  (∀ (s : State) (n : PeriodIndex) (arrival : Nat) (rest : List HandedTick) (elapsed expiry : Nat),
    s.port.handed = ⟨n, arrival⟩ :: rest → s.cadence.timer = some expiry →
    (expiry < arrival ∨ (expiry = arrival ∧ s.cadence.state = .holdover)) → exec (.tick elapsed) s = .next s) ∧
  ∀ (s : State) (p : Pass) (n : PeriodIndex) (arrival : Nat) (rest : List HandedTick) (elapsed : Nat),
    s.pass = some p → s.TickNext n arrival rest →
    let ticks := (ticksAlone s.cadence.waiting).length
    let passed := { s.cadence with clock := s.cadence.later elapsed }
    let config := s.cadence.heldConfig.getD s.config
    (ticks < 16 → exec (.tick elapsed) s = .next
      { s with port := { s.port with handed := rest },
               cadence := { passed with waiting := s.cadence.waiting ++ [.tick n arrival] } }) ∧
    (16 ≤ ticks → (s.cadence.state = .locked ∨ s.cadence.state = .holdover) → exec (.tick elapsed) s = .next
      { s with port := { s.port with handed := rest }, cadence := errorCounted passed config.errorLimit,
               report := match s.cadence.horizon with
                 | none => s.report
                 | some q => severeTold s (q - BitVec.ofNat 32 config.lead) }) ∧
    (16 ≤ ticks → s.cadence.state ≠ .locked → s.cadence.state ≠ .holdover → exec (.tick elapsed) s = .next
      { s with port := { s.port with handed := rest }, cadence := passed })

/-- O39. LOCAL_PERIOD_TIMER_EXPIRY (R57, R60, R81, R106, R112 to R116, R118, R120). A missed tick below K is covered: a
tick error and an opening counted in both windows, the second error of a severe window raising CADENCE_SEVERE once, the
M-th of an error window to be acted on when the pass has completed; HOLDOVER, with CADENCE_STATE from LOCKED; the pass
of the render horizon opened, the timer armed P after it; the pass begins (O45; the tracker's events first, log 17),
and the lanes dispatch when all this is done (the model's choice, log 11). The K-th enters LOST, with CADENCE_STATE: no
pass, the timer and the windows stopped, the render horizon kept; with FREEZE no voice changes, with END every voice
ends CADENCE, in record index order, its end record appended, its count falling and its ring cancelled. During a pass
the expiry waits (R105). A stopped timer does not expire, and a tick that reached the tracker before the expiry is
taken first (the model's choice, log 1); the opening time is the later of the local clock and the expiry time (the
model's choice, log 3). An opening while a QUERY_STATUS is being read: O57. -/
def Obligations.TimerExpiry : Prop :=
  (∀ s : State, s.cadence.timer = none → exec .localPeriodTimerExpiry s = .next s) ∧
  (∀ (s : State) (expiry : Nat), s.cadence.timer = some expiry → (∃ n ∈ s.port.handed, n.arrival < expiry) →
    exec .localPeriodTimerExpiry s = .next s) ∧
  (∀ (s : State) (p : Pass) (expiry : Nat), s.cadence.timer = some expiry → (∀ n ∈ s.port.handed, expiry ≤ n.arrival) →
    s.pass = some p →
    exec .localPeriodTimerExpiry s = .next
      { s with cadence := { s.cadence with timer := none, clock := max s.cadence.clock expiry,
                                           waiting := s.cadence.waiting ++ [.expiry expiry] } }) ∧
  ∀ (s : State) (q : PeriodIndex) (expiry : Nat),
    s.pass = none → s.cadence.timer = some expiry → (∀ n ∈ s.port.handed, expiry ≤ n.arrival) →
    (s.cadence.state = .locked ∨ s.cadence.state = .holdover) →
    s.cadence.horizon = some q → s.cadence.heldConfig = none → s.cadence.limitDue = false →
    let marker := s.cadence.misaligned
    let opening := max s.cadence.clock expiry
    let expected := q - BitVec.ofNat 32 s.config.lead
    (s.cadence.missed + 1 < s.config.missedLimit → s.NoneRead →
      let cadence : Cadence := passOpened
        { errorCounted s.cadence s.config.errorLimit with state := .holdover, missed := s.cadence.missed + 1 }
        s.config.errorWindow opening s.config.period
      let u : State := { s with
        cadence := cadence, pass := some ⟨q, 0, [], 0⟩
        report := if s.cadence.state = .locked then
            (severeTold s expected).raise (.cadenceState .locked marker .holdover marker)
          else severeTold s expected }
      let t := State.dispatch (u.beginPass q)
      ∃ p : Pass, exec .localPeriodTimerExpiry s = .next t ∧ t.pass = some p ∧ p.period = q ∧ t.cadence = cadence ∧
        t.report.event .cadenceSevere = (if s.cadence.severeCount + 1 = 2 ∧ s.cadence.severeRaised = false then
            (s.report.event .cadenceSevere).occur (some (.cadenceSevere expected))
          else s.report.event .cadenceSevere) ∧
        t.report.event .cadenceState = (if s.cadence.state = .locked then
            (s.report.event .cadenceState).occur (some (.cadenceState .locked marker .holdover marker))
          else s.report.event .cadenceState) ∧
        t.config = s.config ∧ t.nextOrder = s.nextOrder ∧ t.headStore = s.headStore ∧ t.ringStore = s.ringStore) ∧
    (s.config.missedLimit ≤ s.cadence.missed + 1 →
      let cadence : Cadence :=
        { s.cadence with state := .lost, misaligned := false, missed := 0, timer := none, clock := opening,
                         waiting := ticksAlone s.cadence.waiting, errorOpenings := 0, errorCount := 0,
                         severeOpenings := 0, severeCount := 0, severeRaised := false, limitDue := false }
      let raised := s.report.raise (.cadenceState s.cadence.state marker .lost false)
      (s.config.lostAction = .freeze → exec .localPeriodTimerExpiry s = .next (State.dispatch
        { s with cadence := cadence, report := raised })) ∧
      (s.config.lostAction = .finish → Table.Rising s.voices → ∃ u : State,
        exec .localPeriodTimerExpiry s = .next u.dispatch ∧ AllEnded s u ∧ u.cadence = cadence ∧ u.port = s.port ∧
        u.pass = none ∧ u.report = endedTold s raised ∧
        u.report.event .cadenceState = (s.report.event .cadenceState).occur
          (some (.cadenceState s.cadence.state marker .lost false)) ∧
        u.report.event .cadenceSevere = s.report.event .cadenceSevere))

/-- What a pass leaves when it completes, but for its reports and refills (R106, R156): the open data frame closed, no
pass, the render horizon the next period. -/
def passClosed (s : State) (p : Pass) (elapsed : Nat) : State :=
  let q := s.port.dataQueue
  let closed := q.dropLast ++ q.getLast?.toList.map fun f => { f with closed := true }
  { s with pass := none, port := { s.port with dataQueue := closed },
           cadence := { s.cadence with clock := s.cadence.later elapsed, horizon := some (p.period + 1) } }

/-- What the completion's reports and refills make of it (R76, R145, R158): EGRESS_OVERRUN where blocks were dropped,
the refill checks of the records that passed a chunk, and the flush of the end list into the free places. Which NOTICE
takes its place before the flush is open: one of four orders (log 13). Then the reads that may go out are sent, and one
free value is used (log 22). -/
def completions (s : State) (p : Pass) (elapsed : Nat) : List State :=
  let overrun (r : State) : State :=
    { r with report := if p.dropped = 0 then r.report else r.report.raise (.egressOverrun p.period p.dropped) }
  let refill (r : State) : State := p.passed.foldl State.refillVoice r
  let flush (r : State) : State := { r with report := r.report.flushAll 16 }
  let closed := passClosed s p elapsed
  [flush (refill (overrun closed)), refill (flush (overrun closed)), overrun (flush (refill closed)),
    refill (overrun (flush closed))].map fun r => { r.dispatch with freeCount := s.freeCount + 1 }

/-- R155, R164: the reply placed, and the unit IDLE. -/
def toldState (s : State) (r : Request) (a : Answer) : State :=
  { s with report := { s.report with
                       control := s.report.control ++ [.reply r.source r.number r.kind a], busy := none } }

/-- The fields of a configuration in CONFIGURE order (R163, R167). -/
def configFields (c : Configuration) : List (Nat × Nat) :=
  [(4, c.sampleRate), (2, c.period), (1, c.lead), (2, c.voiceLimit), (1, c.lowWater), (4, c.quietFloor),
   (1, c.quietRun), (1, c.readTimeout), (2, c.laneThreshold), (2, c.tolerance), (1, c.errorWindow), (1, c.errorLimit),
   (1, c.missedLimit), (1, match c.lostAction with
                           | .freeze => 0
                           | .finish => 1), yesField c.autoRelock]

/-- The fields of one part of a QUERY_STATUS result (R163, R172; the codes of 8.10). -/
def statusFields (s : State) : StatusPart → List (Nat × Nat)
  | .tracker =>
    [cadenceField s.cadence.state, yesField s.cadence.misaligned, yesField s.cadence.lastTick.isSome,
     yesField s.cadence.horizon.isSome, (4, (s.cadence.lastTick.map BitVec.toNat).getD 0),
     (4, (s.cadence.horizon.map BitVec.toNat).getD 0)]
  | .voices => [(2, s.voices.length)]
  | .port =>
    [(1, match s.port.memoryStatus with
         | .read => 0
         | .defaults => 1), (2, s.port.malformed)]
  | .lane l =>
    [laneStateField (s.lane l).state, (1, ((s.lane l).reads.filter fun row => row.2.isBusy).length),
     (2, (s.lane l).queue.length), (2, (s.lane l).errors)]
  | .configuration => configFields s.config

/-- The parts of a QUERY_STATUS result, in the order of its layout (8.10). -/
def statusOrder : List StatusPart :=
  [.tracker, .voices, .port, .lane .lane0, .lane .lane1, .lane .lane2, .lane .lane3, .configuration]

/-- R172: the reports when the next `n` parts of a QUERY_STATUS, the request `r`, have been read as they stand in `s`:
the REPLY OK once none is left (R165), and the unit BUSY until then. -/
def statusRead (s : State) (r : Request) (g : StatusReading) (n : Nat) : Report :=
  let told := g.told ++ (g.left.take n).flatMap fun part => spelled (statusFields s part)
  if g.left.length ≤ n then
    { s.report with control := s.report.control ++ [.reply r.source r.number r.kind ⟨.ok, 0, 0, told⟩], busy := none,
                    reading := none }
  else { s.report with reading := some ⟨told, g.left.drop n⟩ }

/-- R172: `s` when the fields of the QUERY_STATUS that is being read, if any, have all been read as they stand in it.
-/
def statusDone (s : State) : State :=
  match s.report.busy, s.report.reading with
  | some r, some g => { s with report := statusRead s r g g.left.length }
  | _, _ => s

/-- R105, R172: `s` when its waiting list has been taken; where that opens a pass, the fields of a QUERY_STATUS that is
being read are read first. -/
def waitingTaken (s : State) : State :=
  if s.takeWaitingList.pass = none then s.takeWaitingList else (statusDone s).takeWaitingList

/-- R121: the tracker after a soft reset or an accepted CONFIGURE; the local clock and the last opening time go on (log
7). -/
def trackerReset (c : Cadence) : Cadence :=
  { c with state := .search, misaligned := false, candidate := none, lastTick := none, horizon := none, timer := none,
           missed := 0, errorOpenings := 0, errorCount := 0, severeOpenings := 0, severeCount := 0,
           severeRaised := false, waiting := [], limitDue := false, heldConfig := none }

/-- R116: the tracker when its errors reached M with automatic relock on: SEARCH, the render horizon kept, and of the
waiting list all but a timer expiry (R105: the timer is stopped). -/
def trackerSearch (c : Cadence) : Cadence :=
  { c with state := .search, misaligned := false, timer := none, missed := 0, errorOpenings := 0, errorCount := 0,
           severeOpenings := 0, severeCount := 0, severeRaised := false, limitDue := false,
           waiting := ticksAlone c.waiting }

/-- R119: the tracker after a RESYNC in another state than SEARCH. -/
def trackerResync (c : Cadence) : Cadence :=
  { c with state := .search, misaligned := false, candidate := none, timer := none, missed := 0, errorOpenings := 0,
           errorCount := 0, severeOpenings := 0, severeCount := 0, severeRaised := false, waiting := [],
           limitDue := false }

/-- What a RESET answered as the request `r` leaves of `s` (R13, R20, R36, R61, R85, R102, R121, R162, R174, R186). -/
def ResetLeft (s u : State) (r : Request) : Prop :=
  u.voices = [] ∧ u.nextOrder = 0 ∧ u.pass = s.pass ∧
    u.port = { s.port with voiceQueue := [], pendingTicks := [], handed := [], dataQueue := [] } ∧
    (∀ k, u.report.event k =
      { raw := false, masked := (s.report.event k).masked, pending := false, count := 0, capture := none }) ∧
    u.report.endList = [] ∧ u.report.noticeHeld = false ∧ u.report.busy = none ∧
    u.report.reading = s.report.reading ∧
    u.report.control = s.report.control ++ [.reply r.source r.number r.kind ⟨.ok, 0, 0, []⟩] ∧
    u.cadence = trackerReset s.cadence ∧
    (Table.Rising s.slots → ∀ v j, u.slot? v j = (s.slot? v j).bind fun x =>
      if x.outstanding = 0 then none
      else some { x with state := .draining, successor := none,
                         marks := x.marks.map fun m => if m = .waiting then .failed else m }) ∧
    (∀ l, (u.lane l).queue = [] ∧ (u.lane l).errors = 0 ∧ (u.lane l).state = (s.lane l).state ∧
      (u.lane l).present = (s.lane l).present ∧ (u.lane l).primingList = (s.lane l).primingList ∧
      (u.lane l).primingOutstanding = (s.lane l).primingOutstanding ∧
      (u.lane l).window = (if (s.lane l).state = .offline then none else some 1000) ∧
      (u.lane l).reads = (s.lane l).reads.map (fun row => (row.1, match row.2 with
        | .busy (.priming h j _) a m ms => .busy (.priming h j true) a m ms
        | other => other)) ∧
      ∀ h more e, (s.lane l).primingList = h :: more → s.entry? h = some e → e.state = .priming →
        Table.Rising s.library.samples →
        (u.lane l).segments = List.replicate (segmentCount e) { state := .unread, retryUsed := false }) ∧
    (Table.Rising s.library.samples → ∀ h, u.entry? h = (s.entry? h).bind fun e => match e.state with
      | .priming => some { e with refCount := 0, progress := 0 }
      | .ready => some { e with refCount := 0 }
      | .faulted => some { e with refCount := 0 }
      | .retiring => none) ∧
    (∀ i, u.articulation i = s.articulation i ∧ u.zone i = s.zone i ∧ u.curve i = s.curve i) ∧
    (Table.Rising s.library.matrices → ∀ i, u.matrix i =
      if (s.matrix i).pending = true then { s.matrix i with active := (s.matrix i).staged, pending := false }
      else s.matrix i) ∧
    u.config = s.config ∧ u.headStore = s.headStore ∧ u.ringStore = s.ringStore

/-- O40. PASS_COMPLETE (R76, R105, R106, R116, R117, R122, R145, R156, R158). A record that has not had its turn has it
first, in index order. Then the open data frame closes, the render horizon is the next period and no pass is under way;
EGRESS_OVERRUN is raised where blocks were dropped, the refill checks of the records that passed a chunk are made and
the end list is flushed into the free places, in an order that is open (log 13). Ahead of the waiting list come the
action on the error limit, where the errors have reached M, and the request that waited, in an order that is open (log
14): with automatic relock on the tracker enters SEARCH, the render horizon kept, with CADENCE_STATE, and with it off
the misaligned marker is set, with CADENCE_STATE where it was clear (automatic relock as the tracker runs under it: for
a CONFIGURE accepted in the pass, R168 has "the cadence parameters from the tracker's reset on", the model's reading,
log 29); a QUERY_VOICE is answered, the fields of a QUERY_STATUS are read, as many as a free value says at once and
those that are left before the waiting list opens a pass (O57; log 34); RESYNC, RESET or CONFIGURE is carried out. The
tick or the expiry at the head of the waiting list is then taken as if it had come then, with its own arrival time, and
so on until a pass is under way or the list is empty. Without a pass nothing completes, and a tick that reached the
tracker during the pass is put on the waiting list first (log 1). The model's choices: the turns that are left are had
here (log 5), `elapsed` frames of the local clock pass in this step (log 3), the lanes dispatch when all refills are
made and ahead of the limit, the deferred request and the waiting list, where R89 lets a lane send as soon as a part
joins, and once more at the end (log 11); that a request waits BUSY for the completion is read from the rules (log 19),
and a request takes its free value between passes (log 22). -/
def Obligations.PassComplete : Prop :=
  (∀ (s : State) (elapsed : Nat), s.pass = none ∨ s.port.handed ≠ [] → exec (.passComplete elapsed) s = .next s) ∧
  (∀ (s : State) (p : Pass) (elapsed v : Nat), s.pass = some p → s.port.handed = [] → Table.Rising s.voices →
    (s.voice? v).isSome = true → p.next ≤ v → (∀ w, p.next ≤ w → w < v → s.voice? w = none) →
    let u := { s with cadence := { s.cadence with clock := s.cadence.later elapsed } }.renderRecord p.period v
    exec (.passComplete elapsed) s =
      exec (.passComplete 0) { u with pass := u.pass.map fun r => { r with next := v + 1 } }) ∧
  -- every turn has been had
  (∀ (s : State) (p : Pass) (elapsed : Nat),
    s.pass = some p → s.port.handed = [] → (∀ row ∈ s.voices, row.1 < p.next) →
    let closed := passClosed s p elapsed
    let refilled := p.passed.foldl State.refillVoice closed
    ∃ u ∈ completions s p elapsed,
      (exec (.passComplete elapsed) s = .next (waitingTaken u.actOnLimit.finishDeferred).dispatch ∨
        exec (.passComplete elapsed) s = .next (waitingTaken u.finishDeferred.actOnLimit).dispatch) ∧
      u = { closed with slots := u.slots, lanes := u.lanes, report := u.report, freeCount := s.freeCount + 1 } ∧
      u.slots = refilled.dispatch.slots ∧ u.lanes = refilled.dispatch.lanes ∧ u.report.busy = s.report.busy ∧
      (∀ k, u.report.event k = if k = .egressOverrun ∧ p.dropped ≠ 0 then
          (s.report.event k).occur (some (.egressOverrun p.period p.dropped))
        else refilled.report.event k) ∧
      (p.dropped = 0 → p.passed = [] → u.report = s.report.flushAll 16) ∧
      -- neither a limit, nor a request, nor an item of the waiting list
      (s.cadence.limitDue = false → s.report.busy = none → s.cadence.waiting = [] →
        exec (.passComplete elapsed) s = .next u.dispatch)) ∧
  -- the action on the error limit
  (∀ r : State,
    (r.cadence.limitDue = false → r.actOnLimit = r) ∧
    (r.cadence.limitDue = true →
      ((r.cadence.heldConfig.getD r.config).autoRelock = true → r.actOnLimit =
        { r with cadence := trackerSearch r.cadence,
                 report := r.report.raise (.cadenceState r.cadence.state r.cadence.misaligned .search false) }) ∧
      ((r.cadence.heldConfig.getD r.config).autoRelock = false →
        (r.cadence.misaligned = true → r.actOnLimit = { r with cadence := { r.cadence with limitDue := false } }) ∧
        (r.cadence.misaligned = false → r.actOnLimit =
          { r with cadence := { r.cadence with misaligned := true, limitDue := false },
                   report := r.report.raise (.cadenceState r.cadence.state false r.cadence.state true) })))) ∧
  -- the request that waited
  (∀ u : State, (u.report.busy = none → u.finishDeferred = u) ∧ ∀ r, u.report.busy = some r →
    let used (t : State) : State := { t with freeCount := u.freeCount + 1 }
    (r.kind = 0x28 → u.TagsDistinct →
      ((∀ row ∈ u.voices, row.2.tag ≠ BitVec.ofNat 32 (field r.body 0 4)) →
        u.finishDeferred = used (toldState u r ⟨.notFound, 0, 0, []⟩)) ∧
      ∀ v x, u.voice? v = some x → x.tag = BitVec.ofNat 32 (field r.body 0 4) →
        u.finishDeferred = used (toldState u r ⟨.ok, 0, 0, u.voiceResult v x⟩)) ∧
    (r.kind = 0x2C → ∃ n : Nat, u.finishDeferred = used { u with report := statusRead u r ⟨[], statusOrder⟩ n }) ∧
    (r.kind = 0x2D →
      (u.cadence.state = .search → u.finishDeferred = toldState u r ⟨.ok, 0, 0, []⟩) ∧
      (u.cadence.state ≠ .search → u.finishDeferred = toldState
        { u with cadence := trackerResync u.cadence,
                 report := u.report.raise (.cadenceState u.cadence.state u.cadence.misaligned .search false) }
        r ⟨.ok, 0, 0, []⟩)) ∧
    (r.kind = 0x2E → ∃ t : State, u.finishDeferred = t.dispatch ∧ ResetLeft u t r) ∧
    (r.kind = 0x20 → u.finishDeferred = toldState
      { u with cadence := trackerReset u.cadence,
               report := if u.cadence.state = .search then u.report
                         else u.report.raise (.cadenceState u.cadence.state u.cadence.misaligned .search false) }
      r ⟨.ok, 0, 0, []⟩)) ∧
  -- the waiting list
  ∀ u : State, (u.pass.isSome = true ∨ u.cadence.waiting = [] → u.takeWaitingList = u) ∧ (u.pass = none →
    (∀ n arrival more, u.cadence.waiting = .tick n arrival :: more →
      let rest := { u with cadence := { u.cadence with waiting := more } }
      let w := (rest.judgeTick n arrival).afterEvent
      u.takeWaitingList = w.takeWaitingList ∧
      (u.port.handed = [] → (∀ expiry ∈ u.cadence.timer, arrival < expiry) → u.NoneRead ∨ w.pass = none →
        exec (.tick 0) { rest with port := { u.port with handed := [⟨n, arrival⟩] } } = .next w.dispatch)) ∧
    ∀ expiry more, u.cadence.waiting = .expiry expiry :: more →
      let rest := { u with cadence := { u.cadence with waiting := more } }
      let w := rest.judgeExpiry.afterEvent
      u.takeWaitingList = w.takeWaitingList ∧
      (u.port.handed = [] → u.cadence.timer = none → u.NoneRead ∨ w.pass = none →
        exec .localPeriodTimerExpiry
          { rest with cadence := { rest.cadence with timer := some u.cadence.clock } } = .next w.dispatch))

/-- R126, R129: the 24-bit channel samples of the frame that begins at a byte of a memory. -/
def storedFrame (m : Memory) (start : Nat) (e : SampleEntry) : List Int :=
  let n := match e.format with
    | .s16 => 2
    | .s24 => 3
    | .s32 => 4
  (List.range e.channels).map fun c =>
    let weight (i : Nat) : Nat := match e.order with
      | .le => 256 ^ i
      | .be => 256 ^ (n - 1 - i)
    let bits := ((List.range n).map fun i => (Memory.read m (start + c * n + i)).toNat * weight i).sum
    let x : Int := if 2 * bits < 256 ^ n then bits else (bits : Int) - ((256 ^ n : Nat) : Int)
    match e.format with
    | .s16 => x * 256
    | .s24 => x
    | .s32 => min ((x + 128) / 256) 8388607

/-- O41. Where each frame comes from (R125 to R127, R129). A frame before the voice's first, or past the sample end
with the loop not in effect, has no source and is no dropout; one of a head chunk is read from the head store, one of a
ring chunk from the chunk's slot while that is FULL with this chunk, and else it is silent. A frame read is its C
channels, each converted to a 24-bit value: assembled in the byte order of the entry, S16 times 256, S24 as it is, S32
divided by 256, halves up, and limited above. A block is its P frames after the four stages; no source, like silence,
gives 0 for every gain, and is not clipped; the block's silent frames are counted, and it is clipped when one of its
frames is. Both ring chunks of a block that straddles two are judged in one state (the model's choice, log 38). -/
def Obligations.FrameSources : Prop :=
  (∀ (s : State) (v : Nat) (x : Voice) (e : SampleEntry),
    (∀ t : Int, t < 0 → s.frameAt v x e t = some []) ∧
    ∀ n : Nat,
      let k := n / 1024
      let j := (k - x.headChunks) % 8
      let taken (f : Nat) : Prop :=
        (k < x.headChunks →
          s.frameAt v x e n = some (storedFrame s.headStore (e.pageBase * 65536 + f * e.stride) e)) ∧
        (x.headChunks ≤ k →
          (∀ slot, s.slot? v j = some slot → slot.state = .full → slot.chunk = k →
            s.frameAt v x e n =
              some (storedFrame s.ringStore ((8 * v + j) * 32768 + (n - k * 1024) * e.stride) e)) ∧
          ((∀ slot, s.slot? v j = some slot → slot.state ≠ .full ∨ slot.chunk ≠ k) → s.frameAt v x e n = none))
      (x.loopInEffect = false ∨ e.loop = none →
        (e.frames ≤ x.sourceOffset + n → s.frameAt v x e n = some []) ∧
        (x.sourceOffset + n < e.frames → taken (x.sourceOffset + n))) ∧
      ∀ l, x.loopInEffect = true → e.loop = some l →
        (x.sourceOffset + n < l.stop → taken (x.sourceOffset + n)) ∧
        (l.stop ≤ x.sourceOffset + n → taken (l.start + (x.sourceOffset + n - l.stop) % (l.stop - l.start)))) ∧
  (∀ (m : Memory) (start : Nat) (e : SampleEntry), ∀ y ∈ storedFrame m start e, Is24Bit y) ∧
  (∀ (fold : Fold) (gain : Nat), outputFrame fold [] gain = { left := 0, right := 0, clipped := false }) ∧
  ∀ (s : State) (v : Nat) (x : Voice) (e : SampleEntry),
    let r := s.renderFrames v x e
    let source (i : Nat) : Option (List Int) := s.frameAt v x e (x.emit + i)
    let out (i : Nat) : OutputFrame := outputFrame (s.matrix x.matrix).active ((source i).getD [])
      (effectiveGain x.gain (rampLevel x.ramp (x.emit + i)))
    r.frames.length = s.config.period ∧
    (∀ i < s.config.period, r.frames[i]? = some ((out i).left, (out i).right)) ∧
    r.silent = ((List.range s.config.period).filter fun i => (source i).isNone).length ∧
    (r.clipped = true ↔ ∃ i < s.config.period, (out i).clipped = true)

/-- O42. Stages 2 to 4 (R130 to R133). The fold is the sum of each channel sample times its coefficient. Ramp levels
and effective gains: with k frames since its start the level is r0 x (L - k) / L rounded down below L and 0 from L on,
it lies in 0..r0 and never rises, and before its start a ramp covers no frame; the effective gain is at most the voice
gain and equals it where no ramp covers the frame. Stage 4: the scaled sum is the nearest whole number, halves up; a
sample outside 24 bits is replaced by the nearer limit, and the frame counts as clipped exactly when one of its two
samples was replaced. -/
def Obligations.Stages : Prop :=
  (∀ samples coefficients : List Int, samples.length ≤ coefficients.length →
    foldSum samples coefficients =
      ((List.range samples.length).map fun c => samples.getD c 0 * coefficients.getD c 0).sum) ∧
  (∀ (r : Ramp) (k : Nat), 0 < r.length →
    (k < r.length → r.levelAt (r.start + k) = r.level * (r.length - k) / r.length) ∧
    (r.length ≤ k → r.levelAt (r.start + k) = 0) ∧
    r.levelAt (r.start + k) ≤ r.level ∧ r.levelAt (r.start + (k + 1)) ≤ r.levelAt (r.start + k)) ∧
  (∀ (r : Ramp) (t : Int), rampLevel none t = 32768 ∧ (t < r.start → rampLevel (some r) t = 32768) ∧
    (r.start ≤ t → rampLevel (some r) t = r.levelAt t)) ∧
  (∀ gain level : Nat, level ≤ 32768 →
    effectiveGain gain level = (gain * level + 16384) / 32768 ∧ effectiveGain gain level ≤ gain ∧
      effectiveGain gain (rampLevel none 0) = gain) ∧
  ∀ (fold : Fold) (samples : List Int) (gain : Nat),
    let l := scaleSum (foldSum samples fold.left) gain
    let r := scaleSum (foldSum samples fold.right) gain
    let y := outputFrame fold samples gain
    (2 ^ 29 * l ≤ foldSum samples fold.left * gain + 2 ^ 28 ∧
      foldSum samples fold.left * gain + 2 ^ 28 < 2 ^ 29 * (l + 1)) ∧
    (Is24Bit y.left ∧ Is24Bit y.right) ∧
    (Is24Bit l → y.left = l) ∧ (l < -8388608 → y.left = -8388608) ∧ (8388607 < l → y.left = 8388607) ∧
    (Is24Bit r → y.right = r) ∧ (r < -8388608 → y.right = -8388608) ∧ (8388607 < r → y.right = 8388607) ∧
    (y.clipped = true ↔ ¬(Is24Bit l ∧ Is24Bit r))

/-- R65: the loop that is in effect for a voice of this sample. -/
def loopInForce (x : Voice) (e : SampleEntry) : Option SampleLoop :=
  if x.loopInEffect then e.loop else none

/-- R123, R134: the record as its block makes it: PLAYING from PENDING, and RELEASING from the pending release point on
when the block renders that frame and it is not past the sample end. -/
def blockRecord (period : Nat) (x : Voice) (e : SampleEntry) : Voice :=
  let begun := { x with state := if x.state = .pending then .playing else x.state }
  match x.releasePoint with
  | none => begun
  | some p =>
    if begun.state = .playing ∧ x.emit ≤ p ∧ p < x.emit + period ∧
        ((loopInForce x e).isSome = true ∨ p < (e.frames : Int) - x.sourceOffset) then
      { begun with state := .releasing, releasePoint := none, ramp := some ⟨.release, p, 32768, x.releaseLength⟩ }
    else begun

/-- O43. What happens inside a block (R123, R134 to R137). The record becomes PLAYING from PENDING, and RELEASING at
its release point, with a RELEASE ramp from 32,768 over its release length and the point removed. With j the index of
the first frame past the sample end and u that of the frame at which the ramp runs out, both in the block, the earlier
one ends the voice: END_OF_SAMPLE with j valid frames and N - a frames rendered when j is at most u, else RELEASED or
STOPPED, by the ramp's kind, with P valid frames and P frames more rendered; a block with neither ends no voice. A
STOPPING voice's ramp runs out in the block that begins at its start. (A voice that is past its sample's end already,
which no run reaches, has j = 0; log 24.) -/
def Obligations.BlockEnds : Prop :=
  (∀ (period : Nat) (x : Voice) (e : SampleEntry), enterBlock period x e = blockRecord period x e) ∧
  (∀ (period : Nat) (y : Voice) (e : SampleEntry),
    let length : Int := (e.frames : Int) - y.sourceOffset
    let endsAt (j : Nat) : Prop := loopInForce y e = none ∧ length - y.emit < period ∧ j = (length - y.emit).toNat
    let runsOut (r : Ramp) (u : Nat) : Prop := y.ramp = some r ∧ r.start + r.length - 1 = y.emit + u ∧ u < period
    (∀ j, endsAt j → (∀ r u, runsOut r u → j ≤ u) →
      blockEnding period y e = some { reason := .endOfSample, valid := j, position := length }) ∧
    (∀ r u, runsOut r u → (∀ j, endsAt j → u < j) →
      blockEnding period y e = some { reason := (match r.kind with
                                                 | .release => .released
                                                 | .stop => .stopped),
                                      valid := period, position := y.emit + period }) ∧
    ((∀ j, ¬endsAt j) → (∀ r u, ¬runsOut r u) → blockEnding period y e = none)) ∧
  ∀ (period level : Nat) (y : Voice) (e : SampleEntry), 64 ≤ period → y.ramp = some ⟨.stop, y.emit, level, 64⟩ →
    (blockEnding period y e).isSome = true

/-- O44. Quiet suppression and the flags of a block (R138 to R142), for the record `x` before the block, the record `y`
and the frames `r` that the block makes of it, and its ending. A block that ends its voice, and any with Q = 0, is sent
and not judged. Else it is quiet when it has no silent frame and no output sample above F. AUDIBLE: a block that is not
quiet clears the count; a quiet one raises it, and at Q ends a RELEASING voice or takes another into QUIET. QUIET: a
block that is not quiet resumes; a quiet one ends a RELEASING voice and is withheld of another. A block that ends its
voice is sent, with LAST, and never with QUIET_ENTER. -/
def Obligations.QuietSuppression : Prop :=
  ∀ (c : Configuration) (x y : Voice) (r : Rendered) (ending : Option BlockEnding),
    let d := dispose c y r ending
    let quiet := r.silent = 0 ∧ ∀ f ∈ r.frames, f.1.natAbs ≤ c.quietFloor ∧ f.2.natAbs ≤ c.quietFloor
    let kept : Disposition :=
      { sent := true, quietEnter := false, resume := false, count := y.quietCount, quiet := y.quiet, tail := false }
    (ending.isSome = true ∨ c.quietRun = 0 → d = kept) ∧
    (ending = none → 0 < c.quietRun →
      (y.quiet = .audible →
        (¬quiet → d = { kept with count := 0 }) ∧
        (quiet → y.quietCount + 1 < c.quietRun → d = { kept with count := y.quietCount + 1 }) ∧
        (quiet → c.quietRun ≤ y.quietCount + 1 →
          (y.state = .releasing → d = { kept with count := y.quietCount + 1, tail := true }) ∧
          (y.state ≠ .releasing →
            d = { kept with count := y.quietCount + 1, quietEnter := true, quiet := .quiet }))) ∧
      (y.quiet = .quiet →
        (¬quiet → d = { kept with count := 0, resume := true, quiet := .audible }) ∧
        (quiet → y.state = .releasing → d = { kept with tail := true }) ∧
        (quiet → y.state ≠ .releasing → d = { kept with sent := false }))) ∧
    let b := blockOf c.period x y r ending d
    b.tag = x.tag ∧ b.position = x.emit ∧ b.frames = r.frames ∧
    b.valid = (match ending with
               | some stop => stop.valid
               | none => c.period) ∧
    (b.flags.first = true ↔ x.state = .pending) ∧ (b.flags.late = true ↔ x.state = .pending ∧ x.late = true) ∧
    (b.flags.released = true ↔ x.state ≠ .releasing ∧ y.state = .releasing) ∧
    (b.flags.dropout = true ↔ r.silent ≠ 0) ∧ (b.flags.clipped = true ↔ r.clipped = true) ∧
    (b.flags.quietEnter = true ↔ y.quiet = .audible ∧ d.quiet = .quiet) ∧
    (b.flags.resume = true ↔ y.quiet = .quiet ∧ d.quiet = .audible) ∧
    (b.flags.last = true ↔ ending.isSome = true ∨ d.tail = true) ∧
    (b.flags.last = true → d.sent = true ∧ b.flags.quietEnter = false)

/-- O45. A pass begins with the staged matrices (R34, R106) and the turns of the records in ascending index (R122); how
many of them it comes to within the step that opens it is open (log 5). One voice of a pass (R80, R122 to R124, R127,
R128, R133, R134, R139 to R144, R156, R157): a record that is FREE, or PENDING for a later period, is left. Else its
emit position rises by P and it stays, its state, ramp and release point as its block makes them (O43), its quiet
state, quiet count, dropout count and clip count by R139 to R141, R127 and R133 (O41, O44), and every other field as it
was; the ring chunk that the block passed is given back and noted for the refill check; or its record is FREE when the
block ends it, with its end record, its count falling and its ring cancelled. DROPOUT is raised for silent frames and
CLIP for clipped ones, and counted in the record. The block joins the open data frame, or begins one, or is dropped and
counted with 1,024 frames waiting; a withheld block, and any with the link down, leaves the port as it was. The whole
block is judged in the state in which the turn comes (the model's choice, log 38). No other voice changes, and no
zone, curve, matrix, articulation, configuration or byte of DRAM. -/
def Obligations.VoiceRendered : Prop :=
  (∀ (s : State) (q : PeriodIndex),
    (∃ n, s.beginPass q = ((s.voices.map fun row => row.1).take n).foldl
      (fun r v => let t := r.renderRecord q v; { t with pass := t.pass.map fun p => { p with next := v + 1 } })
      s.applyMatrices) ∧
    (Table.Rising s.library.matrices → ∃ table,
      s.applyMatrices = { s with library := { s.library with matrices := table } } ∧
      ∀ i, Table.getD table i FoldMatrix.initial =
        if (s.matrix i).pending = true then { s.matrix i with active := (s.matrix i).staged, pending := false }
        else s.matrix i) ∧
    ∀ v, (∀ x ∈ s.voice? v, x.state = .pending ∧ x.startPeriod ≠ q) → s.renderRecord q v = s) ∧
  ∀ (s : State) (q : PeriodIndex) (v : Nat) (x : Voice) (e : SampleEntry),
    s.voice? v = some x → s.entry? x.handle = some e → (x.state ≠ .pending ∨ x.startPeriod = q) →
    let y := blockRecord s.config.period x e
    let r := s.renderFrames v y e
    let ending := blockEnding s.config.period y e
    let d := dispose s.config y r ending
    let t := s.renderRecord q v
    let next := (x.emit + s.config.period) / 1024
    let passes := x.emit / 1024 < next ∧ (x.headChunks : Int) ≤ next - 1
    let freed := if passes then s.passChunk v x (next - 1).toNat else s
    let dropouts := if r.silent = 0 then x.dropouts else min (x.dropouts + 1) 65535
    let clips := if r.clipped = true then min (x.clips + 1) 65535 else x.clips
    let told (k : EventKind) : EventRecord :=
      if k = .dropout ∧ r.silent ≠ 0 then (s.report.event k).occur (some (.dropout x.tag q r.silent))
      else if k = .clip ∧ r.clipped = true then (s.report.event k).occur (some (.clip x.tag q))
      else s.report.event k
    -- the record, its ring and its reports
    (∀ w, w ≠ v → t.voice? w = s.voice? w) ∧
    (ending = none → d.tail = false →
      t.voice? v = some { x with state := y.state, releasePoint := y.releasePoint, ramp := y.ramp,
                                 emit := x.emit + s.config.period, quiet := d.quiet, quietCount := d.count,
                                 dropouts := dropouts, clips := clips } ∧
      t.slots = freed.slots ∧ t.lanes = freed.lanes ∧ t.library = s.library ∧
      (∀ p ∈ s.pass, t.pass.map Pass.passed = some (if passes then p.passed ++ [v] else p.passed)) ∧
      (∀ k, t.report.event k = told k) ∧ t.report.endList = s.report.endList) ∧
    ((ending.isSome = true ∨ d.tail = true) → d.sent = true ∧ Ended freed t v x ∧
      ∃ before : Report, (∀ k, before.event k = told k) ∧ before.endList = s.report.endList ∧
        t.report = before.appendEnd (match ending with
          | some b => ⟨x.tag, b.reason, min b.position.toNat 4294967295, dropouts, clips⟩
          | none => ⟨x.tag, .quietTail, min (x.emit + s.config.period).toNat 4294967295, dropouts, clips⟩)) ∧
    -- the block
    (let b := blockOf s.config.period x y r ending d
     let full (blocks : List Block) : Bool := decide (8946 / (12 + 6 * s.config.period) ≤ blocks.length)
     let queue := s.port.dataQueue
     let kept := t.pass.map Pass.dropped = s.pass.map Pass.dropped
     (d.sent = false ∨ s.port.linkUp = false → t.port = s.port ∧ kept) ∧
     (d.sent = true → s.port.linkUp = true →
       (∀ f, queue.getLast? = some f → f.closed = false →
         t.port = { s.port with
                    dataQueue := queue.dropLast ++ [⟨f.period, f.blocks ++ [b], full (f.blocks ++ [b])⟩] } ∧ kept) ∧
       ((∀ f ∈ queue.getLast?, f.closed = true) →
         (queue.length < 1024 → t.port = { s.port with dataQueue := queue ++ [⟨q, [b], full [b]⟩] } ∧ kept) ∧
         (1024 ≤ queue.length →
           t.port = s.port ∧ t.pass.map Pass.dropped = s.pass.map fun p => p.dropped + 1)))) ∧
    (t.library.articulations = s.library.articulations ∧ t.library.zones = s.library.zones ∧
      t.library.curves = s.library.curves ∧ t.library.matrices = s.library.matrices ∧ t.cadence = s.cadence ∧
      t.config = s.config ∧ t.nextOrder = s.nextOrder ∧ t.headStore = s.headStore ∧ t.ringStore = s.ringStore)

/-! ### Reads and lanes -/

/-- O46. READ_COMPLETION of a stream read, OK (R67, R77, R82, R90). On an IN_FLIGHT slot the part's bytes are written
at its place in the slot's data area and no other byte of DRAM changes; the part is IN, the slot FULL when every part
is, and the read number FREE. On a DRAINING or LOST slot the data are discarded and the part is counted off; a DRAINING
slot whose last read this is becomes EMPTY without a successor, and with one takes that chunk for the voice that now
owns the record: QUEUED on the lane of its sample, or LOST where that is OFFLINE. -/
def Obligations.StreamReadFills : Prop :=
  (∀ (s : State) (l : LaneId) (n : Fin 32) (data : List Byte) (v j p address units timer : Nat) (slot : Slot),
    (s.lane l).state ≠ .offline →
    Table.get? (s.lane l).reads n = some (.busy (.stream v j p) address units timer) → data.length = units * 4096 →
    s.slot? v j = some slot →
    let free : State :=
      { s with lanes := PerLane.set s.lanes l { s.lane l with reads := Table.erase (s.lane l).reads n } }
    let done (slots : Table Slot) : Host.Outcome State Fault Refusal :=
      .next (State.dispatch { free with slots := slots })
    let counted := Table.insert s.slots (8 * v + j)
      { slot with marks := slot.marks.set p .failed, outstanding := slot.outstanding - 1 }
    (slot.state = .lost → exec (.readCompletion l n .ok data) s = done counted) ∧
    (slot.state = .draining → 1 < slot.outstanding → exec (.readCompletion l n .ok data) s = done counted) ∧
    (slot.state = .draining → slot.outstanding ≤ 1 → slot.successor = none →
      exec (.readCompletion l n .ok data) s = done (Table.erase s.slots (8 * v + j))) ∧
    ∀ k x e, slot.state = .draining → slot.outstanding ≤ 1 → slot.successor = some k → s.voice? v = some x →
      s.entry? x.handle = some e →
      exec (.readCompletion l n .ok data) s = .next (State.dispatch (chunkTaken free v j x e k))) ∧
  ∀ (s : State) (l : LaneId) (n : Fin 32) (data : List Byte) (v j p address units timer : Nat) (slot : Slot)
    (x : Voice) (e : SampleEntry) (part : PartRange),
    (s.lane l).state ≠ .offline →
    Table.get? (s.lane l).reads n = some (.busy (.stream v j p) address units timer) → data.length = units * 4096 →
    s.slot? v j = some slot → slot.state = .inFlight → s.voice? v = some x → s.entry? x.handle = some e →
    (chunkParts x e slot.chunk)[p]? = some part →
    let at0 := (8 * v + j) * 32768 + part.position * e.stride
    let bytes := partBytes e part data
    let marks := slot.marks.set p .filled
    exec (.readCompletion l n .ok data) s = .next (State.dispatch
      { s with lanes := PerLane.set s.lanes l { s.lane l with reads := Table.erase (s.lane l).reads n },
               slots := Table.insert s.slots (8 * v + j)
                 { slot with marks := marks, outstanding := slot.outstanding - 1,
                             state := if ∀ m ∈ marks, m = PartMark.filled then .full else .inFlight },
               ringStore := Memory.write s.ringStore at0 bytes }) ∧
    (∀ i, (h : i < bytes.length) → Memory.read (Memory.write s.ringStore at0 bytes) (at0 + i) = bytes[i]) ∧
    ∀ a, a < at0 ∨ at0 + bytes.length ≤ a →
      Memory.read (Memory.write s.ringStore at0 bytes) a = Memory.read s.ringStore a

/-- R7: the segments of a lane whose priming list has become `list`, its next sample set up: every one UNREAD, no retry
used. -/
def NextSetUp (s : State) (list : List Nat) (segments : List Segment) : Prop :=
  (list = [] → segments = []) ∧
    ∀ g more f, list = g :: more → s.entry? g = some f →
      segments = List.replicate (segmentCount f) { state := .unread, retryUsed := false }

/-- O47. READ_COMPLETION of a priming read, OK (R7, R8, R10, R13 to R15). A LIVE read of an OUTSTANDING segment fills
its page and no other byte of DRAM changes; the read number is FREE, the segment DONE, and one priming read less
outstanding; while another segment is not DONE the entry stays PRIMING. With the last one the entry leaves its lane's
list, whose next sample is set up, READY without a check value or where the CRC-32 of the head bytes equals it,
FAULTED(CHECK) where not, and PRIME_DONE is raised. A read to be DISCARDed is counted off and its data are kept
nowhere. Nothing else changes, and the lanes then dispatch. -/
def Obligations.PrimingReadFills : Prop :=
  (∀ (s : State) (l : LaneId) (n : Fin 32) (data : List Byte) (h j address units timer : Nat),
    (s.lane l).state ≠ .offline →
    Table.get? (s.lane l).reads n = some (.busy (.priming h j true) address units timer) → data.length = units * 4096 →
    exec (.readCompletion l n .ok data) s = .next (State.dispatch
      { s with lanes := PerLane.set s.lanes l
                 { s.lane l with reads := Table.erase (s.lane l).reads n,
                                 primingOutstanding := (s.lane l).primingOutstanding - 1 } })) ∧
  ∀ (s : State) (l : LaneId) (n : Fin 32) (data : List Byte) (h j address units timer : Nat) (more : List Nat)
    (g : Segment) (e : SampleEntry),
    (s.lane l).state ≠ .offline →
    Table.get? (s.lane l).reads n = some (.busy (.priming h j false) address units timer) →
    data.length = units * 4096 → (s.lane l).primingList = h :: more → (s.lane l).segments[j]? = some g →
    g.state = .outstanding → s.entry? h = some e →
    let at0 := (e.pageBase + j) * 65536
    let bytes := data.take (min 65536 (e.headFrames * e.stride - 65536 * j))
    let segments := (s.lane l).segments.set j { g with state := .done }
    let advanced := { e with progress := primingProgress e segments }
    let taken : Lane := { s.lane l with reads := Table.erase (s.lane l).reads n,
                                        primingOutstanding := (s.lane l).primingOutstanding - 1 }
    let left := more.filter (· ≠ h)
    ∃ u : State, exec (.readCompletion l n .ok data) s = .next u.dispatch ∧
      (∀ i, (h : i < bytes.length) → Memory.read u.headStore (at0 + i) = bytes[i]) ∧
      (∀ a, a < at0 ∨ at0 + bytes.length ≤ a → Memory.read u.headStore a = Memory.read s.headStore a) ∧
      ((∃ x ∈ segments, x.state ≠ .done) →
        u.entry? h = some advanced ∧ u.report = s.report ∧ u.lane l = { taken with segments := segments }) ∧
      ((∀ x ∈ segments, x.state = .done) →
        u.lane l = { taken with primingList := left, segments := (u.lane l).segments } ∧
        NextSetUp s left (u.lane l).segments ∧
        let head := crc32 ((List.range (e.headFrames * e.stride)).map fun i =>
          Memory.read u.headStore (e.pageBase * 65536 + i))
        ((∀ c ∈ e.check, c = head) →
          u.entry? h = some { advanced with state := .ready } ∧ u.report = s.report.raise (.primeDone h .ready)) ∧
        (∀ c, e.check = some c → c ≠ head →
          u.entry? h = some { advanced with state := .faulted, fault := some .check } ∧
          u.report = s.report.raise (.primeDone h .check))) ∧
      (∀ k, k ≠ h → u.entry? k = s.entry? k) ∧ (∀ m, m ≠ l → u.lane m = s.lane m) ∧ u.slots = s.slots ∧
      u.library.articulations = s.library.articulations ∧ u.library.zones = s.library.zones ∧
      u.library.curves = s.library.curves ∧ u.library.matrices = s.library.matrices ∧ u.ringStore = s.ringStore ∧
      u.voices = s.voices ∧ u.port = s.port ∧ u.cadence = s.cadence ∧ u.pass = s.pass ∧ u.config = s.config ∧
      u.nextOrder = s.nextOrder ∧ u.freeCount = s.freeCount

/-- O48. A read that fails, by READ_TIMEOUT or by a completion with ECC_FAIL (R11, R13, R78, R82, R90 to R93, R96,
R97). After a timeout the number is held STALE for the read timeout now configured, after a completion it is FREE. The
failure is counted; a READY lane whose count is then above its limit is ERRORED, with LANE_STATE. The part of an
IN_FLIGHT slot raises READ_ERROR; on a lane that is then READY a slot that has not used its retry sends the part back
to the queue, and every other is LOST with FETCH_LOST. The part of a LOST or DRAINING slot raises nothing and is
counted off; a DRAINING slot whose last read this is becomes EMPTY or takes its successor. A LIVE priming read raises
READ_ERROR; its segment has one retry on a READY lane, and else the entry is FAULTED(READ), leaves the list, whose next
sample is set up (R7), its other reads to be DISCARDed, and PRIME_DONE is raised. A read to be DISCARDed is only
counted. The lanes then dispatch. A number that is not BUSY has no timer (log 1). -/
def Obligations.ReadTimeout : Prop :=
  (∀ (s : State) (l : LaneId) (n : Fin 32),
    (∀ owner address units timer, Table.get? (s.lane l).reads n ≠ some (.busy owner address units timer)) →
    exec (.readTimeout l n) s = .next s) ∧
  ∀ (s : State) (l : LaneId) (n : Fin 32) (data : List Byte)
      (ecc : Bool) (owner : ReadOwner) (address units timer : Nat),
    (s.lane l).state ≠ .offline → Table.get? (s.lane l).reads n = some (.busy owner address units timer) →
    let c : Instr := if ecc then .readCompletion l n .eccFail data else .readTimeout l n
    let errors := min ((s.lane l).errors + 1) 65535
    let fails := (s.lane l).state = .ready ∧ s.config.laneThreshold < errors
    let lane := { s.lane l with reads := if ecc then Table.erase (s.lane l).reads n
                                         else Table.insert (s.lane l).reads n (.stale s.config.readTimeout),
                                errors := errors, state := if fails then .errored else (s.lane l).state }
    let counted := if fails then s.report.raise (.laneState l .ready .errored) else s.report
    let told := counted.raise (.readError l address (if ecc then .ecc else .timeout))
    (∀ v j p slot, owner = .stream v j p → s.slot? v j = some slot → slot.state = .inFlight →
      (lane.state = .ready → slot.retryUsed = false → exec c s = .next (State.dispatch
        { s with
          lanes := PerLane.set s.lanes l
            { lane with queue := queueInsert lane.queue ⟨v, j, p, slot.deadline, address, units⟩ },
          slots := Table.insert s.slots (8 * v + j)
            { slot with retryUsed := true, marks := slot.marks.set p .waiting, outstanding := slot.outstanding - 1 },
          report := told })) ∧
      (lane.state = .errored ∨ slot.retryUsed = true → ∃ u : State, exec c s = .next u.dispatch ∧
        u.slots = Table.insert s.slots (8 * v + j)
          { slot with state := .lost, marks := failWaiting (slot.marks.set p .failed),
                      outstanding := slot.outstanding - 1 } ∧
        (∀ x, s.voice? v = some x → u.report = told.raise (.fetchLost x.tag l slot.chunk)) ∧
        (∀ m, u.lane m =
          let was := if m = l then lane else s.lane m
          { was with queue := was.queue.filter fun r => !(r.voice == v && r.slot == j) }) ∧
        u.voices = s.voices ∧ u.library = s.library ∧ u.port = s.port ∧ u.cadence = s.cadence ∧ u.pass = s.pass ∧
        u.config = s.config ∧ u.headStore = s.headStore ∧ u.ringStore = s.ringStore)) ∧
    (∀ v j p slot, owner = .stream v j p → s.slot? v j = some slot →
      let base : State := { s with report := counted, lanes := PerLane.set s.lanes l lane }
      (slot.state = .lost ∨ (slot.state = .draining ∧ 1 < slot.outstanding) → exec c s = .next (State.dispatch
        { base with slots := Table.insert s.slots (8 * v + j)
                      { slot with marks := slot.marks.set p .failed, outstanding := slot.outstanding - 1 } })) ∧
      (slot.state = .draining → slot.outstanding ≤ 1 →
        (slot.successor = none →
          exec c s = .next (State.dispatch { base with slots := Table.erase s.slots (8 * v + j) })) ∧
        ∀ k x e, slot.successor = some k → s.voice? v = some x → s.entry? x.handle = some e →
          exec c s = .next (State.dispatch (chunkTaken base v j x e k)))) ∧
    (∀ h j, owner = .priming h j true → exec c s = .next (State.dispatch
      { s with report := counted,
               lanes := PerLane.set s.lanes l { lane with primingOutstanding := lane.primingOutstanding - 1 } })) ∧
    ∀ h j more g e, owner = .priming h j false → (s.lane l).primingList = h :: more →
      (s.lane l).segments[j]? = some g → g.state = .outstanding → s.entry? h = some e →
      (lane.state = .ready → g.retryUsed = false → exec c s = .next (State.dispatch
        { s with report := told,
                 lanes := PerLane.set s.lanes l
                   { lane with primingOutstanding := lane.primingOutstanding - 1,
                               segments := lane.segments.set j { state := .unread, retryUsed := true } } })) ∧
      (lane.state = .errored ∨ g.retryUsed = true → ∃ u : State, exec c s = .next u.dispatch ∧
        u.entry? h = some { e with state := .faulted, fault := some .read } ∧
        u.report = told.raise (.primeDone h .read) ∧
        (let left := more.filter (· ≠ h)
         u.lane l = { lane with
           primingOutstanding := lane.primingOutstanding - 1, primingList := left, segments := (u.lane l).segments
           reads := lane.reads.map fun row => (row.1, match row.2 with
             | .busy (.priming k i d) a m ms => .busy (.priming k i (d || k == h)) a m ms
             | other => other) } ∧
         NextSetUp s left (u.lane l).segments) ∧
        (∀ m, m ≠ l → u.lane m = s.lane m) ∧
        (∀ k, k ≠ h → u.entry? k = s.entry? k) ∧ u.voices = s.voices ∧ u.slots = s.slots ∧ u.port = s.port ∧
        u.cadence = s.cadence ∧ u.pass = s.pass ∧ u.config = s.config ∧ u.headStore = s.headStore ∧
        u.ringStore = s.ringStore)

/-- O49. The timers of a lane. Answers nobody waits for (R90, R91): on a STALE number a completion, whatever it
carries, and the hold's expiry free the number and nothing else, and the lanes dispatch; a completion on a FREE number
or on an OFFLINE lane changes nothing, nor does an expiry where no hold runs (the model's choice, log 1).
ERROR_WINDOW_END (R96, R98): an ERRORED lane whose ending window counted no failure becomes READY with LANE_STATE;
every other lane with a window keeps its state; the count is 0 and the next window begins. A lane whose window is
stopped has none to end: nothing happens (the model's choice, log 1). -/
def Obligations.LaneTimers : Prop :=
  (∀ (s : State) (l : LaneId) (n : Fin 32) (status : ReadStatus) (data : List Byte),
    let freed := State.dispatch
      { s with lanes := PerLane.set s.lanes l { s.lane l with reads := Table.erase (s.lane l).reads n } }
    (∀ hold, Table.get? (s.lane l).reads n = some (.stale hold) →
      exec (.staleHoldExpiry l n) s = .next freed ∧
      ((s.lane l).state ≠ .offline → exec (.readCompletion l n status data) s = .next freed)) ∧
    ((s.lane l).state = .offline → exec (.readCompletion l n status data) s = .next s) ∧
    (Table.get? (s.lane l).reads n = none →
      exec (.readCompletion l n status data) s = .next s ∧ exec (.staleHoldExpiry l n) s = .next s)) ∧
  ∀ (s : State) (l : LaneId),
    ((s.lane l).window = none → exec (.errorWindowEnd l) s = .next s) ∧
    ((s.lane l).window.isSome = true →
      exec (.errorWindowEnd l) s =
        if (s.lane l).state = .errored ∧ (s.lane l).errors = 0 then
          .next { s with lanes := PerLane.set s.lanes l
                           { s.lane l with state := .ready, errors := 0, window := some 1000 },
                         report := s.report.raise (.laneState l .errored .ready) }
        else
          .next { s with lanes := PerLane.set s.lanes l { s.lane l with errors := 0, window := some 1000 } })

/-- O50. PRESENCE_LOST (R12, R70, R79, R82, R99): the lane is OFFLINE with an empty table, an empty fetch queue, a
stopped window and a count of 0, LANE_STATE is raised with the old state. Every slot with a part waiting or being read
there is LOST, with FETCH_LOST; a LOST one stays LOST and a FULL one is kept; one that waits or is read on other lanes
only is left as it is, its entries in their queues; a DRAINING one that is read elsewhere too stays DRAINING, and one
whose reads were all there is EMPTY, or takes its successor: QUEUED on the lane of its voice's sample, or LOST with
FETCH_LOST where that lane is OFFLINE, this one among them. The segments of the priming sample that were being read are
UNREAD again, their retry marks kept, and the priming list and every other segment stay. No voice, entry, page or ring
byte changes, and of another lane only the queue. The reads are resolved in the order of their numbers (log 12), and
the lanes dispatch when all this is done (the model's choice, log 11). PRESENCE_RETURNED (R100): the lane is READY with
every read number FREE, a count of 0 and a new window, and LANE_STATE is raised with OFFLINE and READY. A line that is
absent already does not go absent, nor one that is present return (R86, log 25). -/
def Obligations.Presence : Prop :=
  ∀ (s : State) (l : LaneId),
    ((s.lane l).present = false → exec (.presenceLost l) s = .next s) ∧
    ((s.lane l).present = true → ∃ u : State, exec (.presenceLost l) s = .next u.dispatch ∧
      u.lane l = { s.lane l with state := .offline, present := false, reads := [], queue := [], errors := 0,
                                 window := none, primingOutstanding := 0, segments := (u.lane l).segments } ∧
      (∀ i g, (s.lane l).segments[i]? = some g →
        let live := ∃ h, (s.lane l).primingList.head? = some h ∧
          ∃ row ∈ (s.lane l).reads, ∃ a m ms, row.2 = .busy (.priming h i false) a m ms
        (live → g.state = .outstanding → (u.lane l).segments[i]? = some { g with state := .unread }) ∧
        (¬live ∨ g.state ≠ .outstanding → (u.lane l).segments[i]? = some g)) ∧
      (u.lane l).segments.length = (s.lane l).segments.length ∧
      (∀ m, m ≠ l → u.lane m = { s.lane m with queue := (u.lane m).queue }) ∧
      u.report.event .laneState = (s.report.event .laneState).occur (some (.laneState l (s.lane l).state .offline)) ∧
      (s.FetchSound → ∀ v j slot, j < 8 → s.slot? v j = some slot →
        let readOn (m : LaneId) : Prop := ∃ row ∈ (s.lane m).reads, ∃ p a u ms, row.2 = .busy (.stream v j p) a u ms
        let here := (∃ n ∈ (s.lane l).queue, n.voice = v ∧ n.slot = j) ∨ readOn l
        let entries (q : List QueueEntry) : List QueueEntry := q.filter fun n => n.voice == v && n.slot == j
        (here → slot.state = .queued ∨ slot.state = .inFlight →
          (∃ x, u.slot? v j = some x ∧ x.state = .lost ∧ x.chunk = slot.chunk ∧ .waiting ∉ x.marks) ∧
          ((s.voice? v).isSome = true → (u.report.event .fetchLost).raw = true)) ∧
        (¬here → u.slot? v j = some slot ∧ ∀ m, m ≠ l → entries (u.lane m).queue = entries (s.lane m).queue) ∧
        (slot.state = .full → u.slot? v j = some slot) ∧
        (slot.state = .lost → ∃ x, u.slot? v j = some x ∧ x.state = .lost ∧ x.chunk = slot.chunk) ∧
        (slot.state = .draining → (∃ m, m ≠ l ∧ readOn m) →
          ∃ x, u.slot? v j = some x ∧ x.state = .draining ∧ x.chunk = slot.chunk ∧ x.successor = slot.successor) ∧
        (slot.state = .draining → 0 < slot.outstanding → (∀ m, m ≠ l → ¬readOn m) →
          (slot.successor = none → u.slot? v j = none) ∧
          ∀ k x e, slot.successor = some k → s.voice? v = some x → s.entry? x.handle = some e →
            let taken : Slot :=
              { state := .queued, chunk := k, retryUsed := false, outstanding := 0, successor := none,
                deadline := x.startPeriod + BitVec.ofNat 32 ((x.offset + k * 1024) / s.config.period),
                marks := (chunkParts x e k).map fun _ => .waiting }
            (e.lane = l ∨ (s.lane e.lane).state = .offline →
              u.slot? v j = some { taken with state := .lost, marks := (chunkParts x e k).map fun _ => .failed } ∧
              (u.report.event .fetchLost).raw = true) ∧
            (e.lane ≠ l → (s.lane e.lane).state ≠ .offline → u.slot? v j = some taken ∧
              ∀ p < taken.marks.length, ∃ n ∈ (u.lane e.lane).queue, n.voice = v ∧ n.slot = j ∧ n.part = p ∧
                n.deadline = taken.deadline))) ∧
      u.voices = s.voices ∧ u.library = s.library ∧ u.nextOrder = s.nextOrder ∧ u.port = s.port ∧
      u.cadence = s.cadence ∧ u.pass = s.pass ∧ u.config = s.config ∧ u.headStore = s.headStore ∧
      u.ringStore = s.ringStore ∧ u.freeCount = s.freeCount) ∧
    ((s.lane l).present = true → exec (.presenceReturned l) s = .next s) ∧
    ((s.lane l).present = false → (s.lane l).state = .offline → exec (.presenceReturned l) s = .next (State.dispatch
      { s with lanes := PerLane.set s.lanes l
                 { s.lane l with state := .ready, present := true, reads := [], errors := 0, window := some 1000 },
               report := s.report.raise (.laneState l .offline .ready) }))

/-- O51. Dispatch (R9, R71, R89). A lane sends nothing while OFFLINE, with 32 reads outstanding or with no number FREE.
Else the lowest FREE number takes the part at the head of the fetch queue, whose slot is IN_FLIGHT with the part
OUTSTANDING and counted; with the queue empty it takes the lowest UNREAD segment of the priming sample, while fewer
than four are outstanding. Dispatch goes on until no lane can send. It touches nothing but the ring slots and the
lanes; of a lane it leaves the state, presence, error window and priming list, and its fetch queue loses parts from its
head alone; an OFFLINE lane is left whole. -/
def Obligations.DispatchFrame : Prop :=
  (∀ (s : State) (l : LaneId),
    ((s.lane l).state = .offline ∨ 32 ≤ (s.lane l).readsOutstanding ∨
      (∀ n < 32, (Table.get? (s.lane l).reads n).isSome = true) → Table.Rising (s.lane l).reads →
      s.dispatchOne? l = none) ∧
    ∀ number < 32, (s.lane l).state ≠ .offline → (s.lane l).readsOutstanding < 32 → Table.Rising (s.lane l).reads →
      Table.get? (s.lane l).reads number = none → (∀ m < number, (Table.get? (s.lane l).reads m).isSome = true) →
      (∀ n rest slot, (s.lane l).queue = n :: rest → s.slot? n.voice n.slot = some slot →
        s.dispatchOne? l = some
          { s with
            lanes := PerLane.set s.lanes l
              { s.lane l with
                queue := rest
                reads := Table.insert (s.lane l).reads number
                  (.busy (.stream n.voice n.slot n.part) n.address n.unitCount s.config.readTimeout) }
            slots := Table.insert s.slots (8 * n.voice + n.slot)
              { slot with state := if slot.state = .queued then .inFlight else slot.state,
                          marks := slot.marks.set n.part .outstanding, outstanding := slot.outstanding + 1 } }) ∧
      ((s.lane l).queue = [] → 4 ≤ (s.lane l).primingOutstanding ∨ (∀ g ∈ (s.lane l).segments, g.state ≠ .unread) →
        s.dispatchOne? l = none) ∧
      ∀ h more j g e, (s.lane l).queue = [] → (s.lane l).primingOutstanding < 4 → (s.lane l).primingList = h :: more →
        s.entry? h = some e → (s.lane l).segments[j]? = some g → g.state = .unread →
        (∀ i < j, ∀ x, (s.lane l).segments[i]? = some x → x.state ≠ .unread) →
        s.dispatchOne? l = some
          { s with
            lanes := PerLane.set s.lanes l
              { s.lane l with
                reads := Table.insert (s.lane l).reads number
                  (.busy (.priming h j false) (e.baseUnit + 16 * j) (segmentUnitCount e j) s.config.readTimeout)
                segments := (s.lane l).segments.set j { g with state := .outstanding }
                primingOutstanding := (s.lane l).primingOutstanding + 1 } }) ∧
  (∀ s : State, (∀ l, Table.Rising (s.lane l).reads) → ∀ l, s.dispatch.dispatchOne? l = none) ∧
  ∀ s : State, ∃ slots lanes, s.dispatch = { s with slots := slots, lanes := lanes } ∧
    ∀ l, (∃ taken, (s.lane l).queue = taken ++ (PerLane.get lanes l).queue ∧ taken.length ≤ 32) ∧
      (PerLane.get lanes l).state = (s.lane l).state ∧ (PerLane.get lanes l).present = (s.lane l).present ∧
      (PerLane.get lanes l).errors = (s.lane l).errors ∧ (PerLane.get lanes l).window = (s.lane l).window ∧
      (PerLane.get lanes l).primingList = (s.lane l).primingList ∧
      ((s.lane l).state = .offline → PerLane.get lanes l = s.lane l)

/-- O52. The rings and the queue order (R70, R72 to R74, R76, R80 to R82). A part is placed ahead of the first entry,
from the queue's head on, whose deadline is after its own, and behind all before it; that this holds too for an entry
exactly 2^31 periods away, which is neither before nor after and is passed, and in a queue that spans more than half of
the circle, is the model's choice (log 37). Deadlines within one half of the circle stay in order. An EMPTY slot takes
the chunk asked of it, a DRAINING one records it as its successor and takes it when its last read resolves. A start
asks for chunks h to h + 7 in that order, up to the sample end; a late start moves the deadlines of its slots, and
every one of its waiting parts is placed again in its queue, in slot and part order, behind the parts of equal
deadline; a passed chunk, and a voice that ends, give their slots back, DRAINING while reads are outstanding; a refill
asks for every chunk of the window that the ring is not committed to, in ascending order, once at most W of them are.
None of these touches anything but the slots and, of the lanes, the queues, or, for a chunk asked of an OFFLINE lane,
the reports (R70). -/
def Obligations.RingOperations : Prop :=
  -- the place in a queue (R70)
  (∀ (q : List QueueEntry) (n : QueueEntry),
    ∃ ahead behind, q = ahead ++ behind ∧ queueInsert q n = ahead ++ n :: behind ∧
    (∀ m ∈ ahead, isBefore n.deadline m.deadline = false) ∧ ∀ m ∈ behind.head?, isBefore n.deadline m.deadline = true) ∧
  (∀ (q : List QueueEntry) (n : QueueEntry) (origin : PeriodIndex),
    (∀ m ∈ n :: q, (m.deadline - origin).toNat < 2 ^ 31) →
    (q.Pairwise fun a b => (a.deadline - origin).toNat ≤ (b.deadline - origin).toNat) →
    (queueInsert q n).Pairwise fun a b => (a.deadline - origin).toNat ≤ (b.deadline - origin).toNat) ∧
  -- a chunk asked of its slot (R73), and the prefill of a start (R74)
  (∀ (s : State) (v : Nat) (x : Voice) (e : SampleEntry) (k : Nat),
    let j := (k - x.headChunks) % 8
    (s.slot? v j = none → s.requestChunk v x e k = chunkTaken s v j x e k) ∧
    ∀ slot, s.slot? v j = some slot →
      (slot.state = .draining →
        s.requestChunk v x e k = { s with slots := Table.insert s.slots (8 * v + j) { slot with successor := some k } }) ∧
      (slot.state ≠ .draining → s.requestChunk v x e k = s)) ∧
  (∀ (s : State) (v : Nat) (x : Voice) (e : SampleEntry),
    s.prefill v x e = (((List.range 8).map fun i => x.headChunks + i).takeWhile fun k => !chunkPastEnd x e k).foldl
      (fun r k => r.requestChunk v x e k) s) ∧
  (∀ (s : State) (v : Nat) (x : Voice) (e : SampleEntry), (s.lane e.lane).state ≠ .offline →
    (∀ w j, w ≠ v → j < 8 → (s.prefill v x e).slot? w j = s.slot? w j) ∧
    ∀ j < 8, (s.prefill v x e).slot? v j =
      let k := x.headChunks + j
      if chunkPastEnd x e k = true then s.slot? v j
      else match s.slot? v j with
        | none => some { state := .queued, chunk := k, retryUsed := false, outstanding := 0, successor := none,
                         deadline := x.startPeriod + BitVec.ofNat 32 ((x.offset + k * 1024) / s.config.period),
                         marks := (chunkParts x e k).map fun _ => .waiting }
        | some slot => if slot.state = .draining then some { slot with successor := some k } else some slot) ∧
  -- a late start (R72)
  (∀ (s : State) (v : Nat) (delta : PeriodIndex),
    let t := s.shiftDeadlines v delta
    t = { s with slots := t.slots, lanes := t.lanes } ∧
    (∀ w j, j < 8 → t.slot? w j = (s.slot? w j).map fun slot =>
      if w = v ∧ slot.state ≠ .draining then { slot with deadline := slot.deadline + delta } else slot) ∧
    ∀ l,
      let waited (j : Nat) (first : Bool) : List QueueEntry :=
        (s.lane l).queue.filter fun n => n.voice == v && n.slot == j && (n.part == 0) == first
      let again := ((List.range 8).flatMap fun j => waited j true ++ waited j false).map fun n =>
        match t.slot? v n.slot with
        | none => n
        | some slot => { n with deadline := slot.deadline }
      t.lane l = { s.lane l with
                   queue := again.foldl queueInsert ((s.lane l).queue.filter fun n => n.voice != v) } ∧
      ∀ n ∈ (s.lane l).queue, n.voice = v → n.slot < 8 → ∃ m ∈ (t.lane l).queue,
        m.voice = v ∧ m.slot = n.slot ∧ m.part = n.part ∧ m.address = n.address ∧ m.unitCount = n.unitCount ∧
          ∀ slot, t.slot? v n.slot = some slot → m.deadline = slot.deadline) ∧
  -- slots given back (R80, R81)
  (∀ (s : State) (v j : Nat) (x : Voice) (k : Nat) (slot : Slot),
    (k - x.headChunks) % 8 = j → s.slot? v j = some slot →
    let t := s.passChunk v x k
    let left : Prop := ∀ l, t.lane l =
      { s.lane l with queue := (s.lane l).queue.filter fun n => !(n.voice == v && n.slot == j) }
    let draining (marks : List PartMark) : Slot := { slot with state := .draining, marks := marks, successor := none }
    t = { s with slots := t.slots, lanes := t.lanes } ∧
    (slot.state = .full → t = { s with slots := Table.erase s.slots (8 * v + j) }) ∧
    (slot.state = .lost → slot.outstanding = 0 → t = { s with slots := Table.erase s.slots (8 * v + j) }) ∧
    (slot.state = .lost → 0 < slot.outstanding →
      t = { s with slots := Table.insert s.slots (8 * v + j) (draining slot.marks) }) ∧
    (slot.state = .queued → t.slots = Table.erase s.slots (8 * v + j) ∧ left) ∧
    (slot.state = .inFlight → slot.outstanding = 0 → t.slots = Table.erase s.slots (8 * v + j) ∧ left) ∧
    (slot.state = .inFlight → 0 < slot.outstanding →
      t.slots = Table.insert s.slots (8 * v + j) (draining (failWaiting slot.marks)) ∧ left) ∧
    (slot.state = .draining → slot.successor = some k →
      t = { s with slots := Table.insert s.slots (8 * v + j) { slot with successor := none } }) ∧
    (slot.state = .draining → slot.successor ≠ some k → t = s)) ∧
  (∀ (s : State) (v : Nat),
    let t := s.cancelRing v
    t = { s with slots := t.slots, lanes := t.lanes } ∧
    (∀ w j, j < 8 → t.slot? w j = (s.slot? w j).bind fun slot =>
      if w ≠ v then some slot
      else if slot.outstanding = 0 then none
      else some { slot with state := .draining, marks := failWaiting slot.marks, successor := none }) ∧
    ∀ l, t.lane l =
      { s.lane l with
        queue := (s.lane l).queue.filter fun n =>
          !(n.voice == v && decide (n.slot < 8) && (s.slot? v n.slot).isSome) }) ∧
  -- a DRAINING slot's last read (R82), and the refill (R75, R76)
  (∀ (s : State) (v j p k : Nat) (slot : Slot) (x : Voice) (e : SampleEntry), slot.outstanding ≤ 1 →
    s.voice? v = some x → s.entry? x.handle = some e → slot.successor = some k →
    s.drainRead v j p slot = chunkTaken s v j x e k) ∧
  ∀ (s : State) (v : Nat) (x : Voice) (e : SampleEntry), s.WindowsHold → s.voice? v = some x →
    s.entry? x.handle = some e →
    let first := max (x.emit.toNat / 1024) x.headChunks
    let window := (List.range 8).map fun i => first + i
    let held := ((List.range 8).filterMap fun j => committedChunk (s.slot? v j)).filter window.contains
    (s.config.lowWater < held.length → s.refillVoice v = s) ∧
    (held.length ≤ s.config.lowWater → s.refillVoice v =
      (window.filter fun k => !chunkPastEnd x e k && !held.contains k).foldl (fun r k => r.requestChunk v x e k) s) ∧
    (held.length ≤ s.config.lowWater → ∀ k ∈ window, chunkPastEnd x e k = false →
      committedChunk ((s.refillVoice v).slot? v ((k - x.headChunks) % 8)) = some k)

/-! ### Management requests -/

/-- The first of the checks, in ordinal order, that does not hold is that of this ordinal. -/
def firstOut (checks : List (Nat × Prop)) (ordinal : Nat) : Prop :=
  ∃ before check after, checks = before ++ (ordinal, check) :: after ∧ ¬check ∧ ∀ c ∈ before, c.2

/-- Every check holds. -/
def allIn (checks : List (Nat × Prop)) : Prop :=
  ∀ c ∈ checks, c.2

/-- R167: the fifteen parameters by ordinal, each with its accepted range, in the layout of 8.10. -/
def configRanges (b : List Byte) : List (Nat × Prop) :=
  [(1, field b 0 4 ∈ [44100, 48000, 88200, 96000]),
   (2, field b 4 2 ∈ [64, 128, 256, 512, 1024]),
   (3, 2 ≤ field b 6 1 ∧ field b 6 1 ≤ 16),
   (4, 1 ≤ field b 7 2 ∧ field b 7 2 ≤ 2048),
   (5, 1 ≤ field b 9 1 ∧ field b 9 1 ≤ 6),
   (6, field b 10 4 ≤ 8388607),
   (7, field b 14 1 ≤ 255),
   (8, 1 ≤ field b 15 1 ∧ field b 15 1 ≤ 255),
   (9, 1 ≤ field b 16 2 ∧ field b 16 2 ≤ 65535),
   (10, 2 * field b 18 2 ≤ field b 4 2),
   (11, 4 ≤ field b 20 1 ∧ field b 20 1 ≤ 64),
   (12, 1 ≤ field b 21 1 ∧ field b 21 1 ≤ field b 20 1),
   (13, 1 ≤ field b 22 1 ∧ field b 22 1 ≤ 255),
   (14, field b 23 1 ∈ [0, 1]),
   (15, field b 24 1 ∈ [0, 1])]

/-- R3, with the table of 1.3: the fields of a LOAD_SAMPLE that are checked after the handle, by ordinal. The format
codes 2, 3 and 4 are its bytes per sample (8.10, Codes). -/
def loadRanges (b : List Byte) : List (Nat × Prop) :=
  [(2, field b 4 1 ≤ 3),
   (3, field b 5 8 ≤ 2 ^ 40 - 1),
   (4, 1 ≤ field b 13 4 ∧ field b 13 4 ≤ 2 ^ 32 - 1),
   (5, 1 ≤ field b 17 1 ∧ field b 17 1 ≤ 8),
   (6, field b 18 1 ∈ [2, 3, 4]),
   (7, field b 19 1 ∈ [0, 1]),
   (8, field b 17 1 * field b 18 1 ≤ field b 20 1 ∧ field b 20 1 ≤ 32),
   (11, field b 29 1 ∈ [0, 1]),
   (12, field b 29 1 = 1 → field b 30 4 ≤ field b 13 4),
   (13, field b 29 1 = 1 → field b 34 4 ≤ field b 13 4 ∧ field b 30 4 + 1024 ≤ field b 34 4),
   (14, field b 38 1 ∈ [0, 1])]

/-- R22: the fields of a LOAD_ARTICULATION by ordinal. -/
def articulationRanges (b : List Byte) : List (Nat × Prop) :=
  [(1, field b 0 2 ≤ 4095),
   (2, field b 2 2 ≤ 65535),
   (3, field b 4 1 ≤ 64 ∧ field b 2 2 + field b 4 1 ≤ 65536),
   (4, 1 ≤ field b 5 1 ∧ field b 5 1 ≤ 16),
   (5, 64 ≤ field b 6 4 ∧ field b 6 4 ≤ 262144)]

/-- R23, R24: the fields of a LOAD_ZONES by ordinal, nine for each record; the ninth, the trim, cannot fail. -/
def zonesRanges (b : List Byte) : List (Nat × Prop) :=
  [(1, field b 0 2 ≤ 65535), (2, 1 ≤ field b 2 2 ∧ field b 2 2 ≤ 64 ∧ field b 0 2 + field b 2 2 ≤ 65536)] ++
  (List.range (field b 2 2)).flatMap fun p =>
    let at0 := 4 + 13 * p
    [(2 + 9 * p + 1, field b at0 1 ≤ 127),
     (2 + 9 * p + 2, field b (at0 + 1) 1 ≤ 127 ∧ field b at0 1 ≤ field b (at0 + 1) 1),
     (2 + 9 * p + 3, field b (at0 + 2) 1 ≤ 127),
     (2 + 9 * p + 4, field b (at0 + 3) 1 ≤ 127 ∧ field b (at0 + 2) 1 ≤ field b (at0 + 3) 1),
     (2 + 9 * p + 5, field b (at0 + 4) 1 ≤ 15),
     (2 + 9 * p + 6, field b (at0 + 5) 4 ≤ 131071),
     (2 + 9 * p + 7, field b (at0 + 9) 1 ≤ 15),
     (2 + 9 * p + 8, field b (at0 + 10) 1 ≤ 255)]

/-- R28, R29: the six points of a LOAD_CURVE run from velocity 1 to 127, rising. -/
def pointsRise (b : List Byte) : Prop :=
  field b 1 1 = 1 ∧ field b 1 1 < field b 2 1 ∧ field b 2 1 < field b 3 1 ∧ field b 3 1 < field b 4 1 ∧
    field b 4 1 < field b 5 1 ∧ field b 5 1 < field b 6 1 ∧ field b 6 1 = 127

/-- R182: the codes and mask values of an EVENT_MASK by ordinal, two for each entry. -/
def maskRanges (b : List Byte) : List (Nat × Prop) :=
  (List.range (b.length / 2)).flatMap fun p =>
    [(2 * p + 1, 1 ≤ field b (2 * p) 1 ∧ field b (2 * p) 1 ≤ 20), (2 * p + 2, field b (2 * p + 1) 1 ∈ [0, 1])]

/-- R182: the codes of an EVENT_CLEAR or EVENT_SET by ordinal. -/
def codeRanges (b : List Byte) : List (Nat × Prop) :=
  (List.range b.length).map fun p => (p + 1, 1 ≤ field b p 1 ∧ field b p 1 ≤ 20)

/-- O53. CONFIGURE (R121, R167, R168). With a voice non-FREE it is refused VOICES_ACTIVE; else the first of the fifteen
fields out of its range refuses it, with its ordinal. Accepted, the fifteen parameters and the partner are its own;
with no pass under way the tracker is in SEARCH with the horizon undefined, CADENCE_STATE raised when it was not in
SEARCH, and OK is answered; during a pass the unit stays BUSY (log 19) and the tracker keeps its state and the
parameters it runs under (the model's reading, log 29). A tick that was handed on and not taken is kept (the model's
choice, log 4), and so are the local clock and the last opening time (the model's choice, log 7). -/
def Obligations.Configure : Prop :=
  ∀ (s : State) (r : Request) (rest : List Request), s.Takes r rest → r.kind = 0x20 → r.mark = .unmarked →
    (s.voices ≠ [] → exec .configure s = .next (s.answered r rest ⟨.voicesActive, 0, 0, []⟩)) ∧
    (s.voices = [] → ∀ ordinal, firstOut (configRanges r.body) ordinal →
      exec .configure s = .next (s.answered r rest ⟨.badField, ordinal, 0, []⟩)) ∧
    ∀ c : Configuration, s.voices = [] → r.body = configBytes c → c.InRange →
      let port := { s.port with mgmtQueue := rest, partner := some r.source }
      (s.pass = none →
        let told := if s.cadence.state = .search then s.report else s.report.raise
          (.cadenceState s.cadence.state s.cadence.misaligned .search false)
        ∃ t : State, exec .configure s = .next t ∧ t.config = c ∧ t.port = port ∧ t.cadence = trackerReset s.cadence ∧
          (∀ k, t.report.event k = told.event k) ∧ t.report.endList = s.report.endList ∧ t.report.busy = none ∧
          t.report.reading = s.report.reading ∧
          t.report.control.getLast? = some (.reply r.source r.number 0x20 ⟨.ok, 0, 0, []⟩) ∧
          t.library = s.library ∧ t.voices = s.voices ∧ t.nextOrder = s.nextOrder ∧ t.slots = s.slots ∧
          t.lanes = s.lanes ∧ t.headStore = s.headStore ∧ t.ringStore = s.ringStore) ∧
      ∀ p, s.pass = some p → exec .configure s = .next
        { s with port := port, config := c, report := { s.report with busy := some r },
                 cadence := { s.cadence with heldConfig := some s.config } }

/-- O54. LOAD_SAMPLE (R3 to R7). The head length is the greatest multiple of 1,024 that is at most the frames
requested, 65,536 and N; 0 for fewer than 1,024 of either. Refused, in order: a handle above 131,071, an entry that is
not EMPTY, the first field out of its range, a page run beyond the store, and one that shares a page with another
entry's. Accepted, the entry is written and OK answers H and the page count; with H > 0 it is PRIMING at the tail of
its lane's list, set up with every segment UNREAD where it is alone in it, with H = 0 it is READY, or FAULTED(CHECK)
when a check value is given that is not 0, and PRIME_DONE is raised. The reply takes its place before that event's
NOTICE (the model's reading, log 11), and the lanes then dispatch. -/
def Obligations.LoadSample : Prop :=
  (∀ frames requested : Nat,
    let h := clampHead frames requested
    (h % 1024 = 0 ∧ h ≤ requested ∧ h ≤ 65536 ∧ h ≤ frames) ∧
    (∀ m, m % 1024 = 0 → m ≤ requested → m ≤ 65536 → m ≤ frames → m ≤ h) ∧
    (frames < 1024 → h = 0) ∧ (requested < 1024 → h = 0)) ∧
  ∀ (s : State) (r : Request) (rest : List Request), s.Takes r rest → r.kind = 0x21 → r.mark = .unmarked →
    let b := r.body
    let handle := field b 0 4
    let head := clampHead (field b 13 4) (field b 21 4)
    let pages := (head * field b 20 1 + 65535) / 65536
    let base := field b 25 4
    let refused (a : Answer) : Prop := exec .loadSample s = .next (s.answered r rest a)
    (131071 < handle → refused ⟨.badField, 1, 0, []⟩) ∧
    (handle ≤ 131071 →
      ((s.entry? handle).isSome = true → refused ⟨.entryBusy, 0, 0, []⟩) ∧
      (s.entry? handle = none →
        (∀ ordinal, firstOut (loadRanges b) ordinal → refused ⟨.badField, ordinal, 0, []⟩) ∧
        (allIn (loadRanges b) →
          (0 < head → 262143 < base + pages - 1 → refused ⟨.headRange, 0, 0, []⟩) ∧
          (0 < head → base + pages - 1 ≤ 262143 → Table.Rising s.library.samples →
            ∀ g e, s.entry? g = some e → runsOverlap base pages e = true →
              (∀ k f, s.entry? k = some f → runsOverlap base pages f = true → g ≤ k) →
              refused ⟨.headOverlap, 0, g, []⟩) ∧
          ((head = 0 ∨ (base + pages - 1 ≤ 262143 ∧ ∀ row ∈ s.library.samples, runsOverlap base pages row.2 = false)) →
            let entry : SampleEntry :=
              { state := .priming, lane := laneOfNumber (field b 4 1), baseUnit := field b 5 8, frames := field b 13 4,
                channels := field b 17 1, format := formatOfCode (field b 18 1), order := orderOfCode (field b 19 1),
                stride := field b 20 1, headFrames := head, pageBase := if head = 0 then 0 else base,
                pageCount := if head = 0 then 0 else pages,
                loop := if field b 29 1 = 1 then some ⟨field b 30 4, field b 34 4⟩ else none,
                check := if field b 38 1 = 1 then some (BitVec.ofNat 32 (field b 39 4)) else none,
                refCount := 0, progress := 0, fault := none }
            let ok : Answer := ⟨.ok, 0, 0, toBE 4 head ++ toBE 2 (if head = 0 then 0 else pages)⟩
            let list := (s.lane entry.lane).primingList
            ∃ u : State, exec .loadSample s = .next u.dispatch ∧ u.port = { s.port with mgmtQueue := rest } ∧
              (∀ k, k ≠ handle → u.entry? k = s.entry? k) ∧
              (0 < head → u.entry? handle = some entry ∧ u.report = (s.answered r rest ok).report ∧
                u.lane entry.lane = { s.lane entry.lane with primingList := list ++ [handle],
                                                             segments := (u.lane entry.lane).segments } ∧
                (list = [] → NextSetUp u [handle] (u.lane entry.lane).segments) ∧
                (list ≠ [] → (u.lane entry.lane).segments = (s.lane entry.lane).segments)) ∧
              (head = 0 → entry.check = none → u.entry? handle = some { entry with state := .ready } ∧
                u.report = (s.answered r rest ok).report.raise (.primeDone handle .ready)) ∧
              (head = 0 → ∀ c, entry.check = some c →
                (c = 0 → u.entry? handle = some { entry with state := .ready } ∧
                  u.report = (s.answered r rest ok).report.raise (.primeDone handle .ready)) ∧
                (c ≠ 0 → u.entry? handle = some { entry with state := .faulted, fault := some .check } ∧
                  u.report = (s.answered r rest ok).report.raise (.primeDone handle .check))) ∧
              (∀ l, head = 0 ∨ l ≠ entry.lane → u.lane l = s.lane l) ∧ u.slots = s.slots ∧
              u.voices = s.voices ∧ u.cadence = s.cadence ∧ u.pass = s.pass ∧ u.config = s.config ∧
              u.headStore = s.headStore ∧ u.ringStore = s.ringStore))))

/-- O55. RETIRE_SAMPLE (R7, R13, R16, R17): BAD_FIELD above 131,071 and NOT_FOUND for an EMPTY entry; a READY entry
with voices becomes RETIRING and a RETIRING one stays; a READY entry with none, a FAULTED and a PRIMING one become
EMPTY. A PRIMING one leaves its lane's list, its outstanding reads, still counted, are to be DISCARDed, and where it
was the priming sample the next of the list is set up, every segment UNREAD. OK answers the resulting state, and the
lanes dispatch at the end (the model's choice, log 11); no other entry and no other lane changes. -/
def Obligations.RetireSample : Prop :=
  ∀ (s : State) (r : Request) (rest : List Request), s.Takes r rest → r.kind = 0x22 → r.mark = .unmarked →
    let h := field r.body 0 4
    let ok (code : Nat) : Report := (s.answered r rest ⟨.ok, 0, 0, toBE 1 code⟩).report
    (131071 < h → exec .retireSample s = .next (s.answered r rest ⟨.badField, 1, 0, []⟩)) ∧
    (h ≤ 131071 → s.entry? h = none → exec .retireSample s = .next (s.answered r rest ⟨.notFound, 0, 0, []⟩)) ∧
    (h ≤ 131071 → ∀ e, s.entry? h = some e → ∃ u : State, exec .retireSample s = .next u.dispatch ∧
      (e.state = .ready → 0 < e.refCount → u.entry? h = some { e with state := .retiring } ∧ u.report = ok 4) ∧
      (e.state = .retiring → u.entry? h = some e ∧ u.report = ok 4) ∧
      (e.state = .faulted ∨ e.state = .priming ∨ (e.state = .ready ∧ e.refCount = 0) →
        u.entry? h = none ∧ u.report = ok 0) ∧
      (e.state = .priming →
        let list := (s.lane e.lane).primingList
        let left := list.filter (· ≠ h)
        u.lane e.lane = { s.lane e.lane with
          primingList := left, segments := (u.lane e.lane).segments
          reads := (s.lane e.lane).reads.map fun row => (row.1, match row.2 with
            | .busy (.priming k i d) a m ms => .busy (.priming k i (d || k == h)) a m ms
            | other => other) } ∧
        (list.head? ≠ some h → (u.lane e.lane).segments = (s.lane e.lane).segments) ∧
        (list.head? = some h → NextSetUp s left (u.lane e.lane).segments)) ∧
      (∀ l, e.state ≠ .priming ∨ l ≠ e.lane → u.lane l = s.lane l) ∧ u.slots = s.slots ∧
      (∀ k, k ≠ h → u.entry? k = s.entry? k) ∧ u.port = { s.port with mgmtQueue := rest } ∧ u.voices = s.voices ∧
      u.cadence = s.cadence ∧ u.pass = s.pass ∧ u.config = s.config ∧ u.headStore = s.headStore ∧
      u.ringStore = s.ringStore)

/-- O56. LOAD_ARTICULATION, LOAD_ZONES, LOAD_CURVE, LOAD_MATRIX (R22, R24, R25, R29, R33): refused whole, the table as
it was, with the first failing ordinal or BAD_CURVE; accepted, the named records take the request's fields, the cursor
is 0, the staged copy and its mark are set and the active copy kept, OK is answered, and no other record changes. -/
def Obligations.TableLoads : Prop :=
  ∀ (s : State) (r : Request) (rest : List Request), s.Takes r rest → r.mark = .unmarked →
    let b := r.body
    let ok : State := s.answered r rest ⟨.ok, 0, 0, []⟩
    (r.kind = 0x24 →
      (∀ ordinal, firstOut (articulationRanges b) ordinal →
        exec .loadArticulation s = .next (s.answered r rest ⟨.badField, ordinal, 0, []⟩)) ∧
      (allIn (articulationRanges b) → ∃ table,
        exec .loadArticulation s = .next { ok with library := { s.library with articulations := table } } ∧
        ∀ i, Table.getD table i Articulation.initial =
          if i = field b 0 2 then ⟨field b 2 2, field b 4 1, field b 5 1, 0, field b 6 4⟩ else s.articulation i)) ∧
    (r.kind = 0x25 →
      (∀ ordinal, firstOut (zonesRanges b) ordinal →
        exec .loadZones s = .next (s.answered r rest ⟨.badField, ordinal, 0, []⟩)) ∧
      (allIn (zonesRanges b) → ∃ table,
        exec .loadZones s = .next { ok with library := { s.library with zones := table } } ∧
        ∀ i, Table.getD table i Zone.initial =
          if field b 0 2 ≤ i ∧ i < field b 0 2 + field b 2 2 then
            let o := 4 + 13 * (i - field b 0 2)
            ⟨field b o 1, field b (o + 1) 1, field b (o + 2) 1, field b (o + 3) 1, field b (o + 4) 1,
              field b (o + 5) 4, field b (o + 9) 1, field b (o + 10) 1, field b (o + 11) 2⟩
          else s.zone i)) ∧
    (r.kind = 0x26 →
      (15 < field b 0 1 → exec .loadCurve s = .next (s.answered r rest ⟨.badField, 1, 0, []⟩)) ∧
      (field b 0 1 ≤ 15 →
        (¬pointsRise b → exec .loadCurve s = .next (s.answered r rest ⟨.badCurve, 0, 0, []⟩)) ∧
        (pointsRise b → ∃ table,
          exec .loadCurve s = .next { ok with library := { s.library with curves := table } } ∧
          ∀ i, Table.getD table i Curve.initial =
            if i = field b 0 1 then
              ⟨⟨field b 1 1, field b 7 2⟩, ⟨field b 2 1, field b 9 2⟩, ⟨field b 3 1, field b 11 2⟩,
                ⟨field b 4 1, field b 13 2⟩, ⟨field b 5 1, field b 15 2⟩, ⟨field b 6 1, field b 17 2⟩⟩
            else s.curve i))) ∧
    (r.kind = 0x27 →
      (255 < field b 0 2 → exec .loadMatrix s = .next (s.answered r rest ⟨.badField, 1, 0, []⟩)) ∧
      (field b 0 2 ≤ 255 → ∃ table,
        exec .loadMatrix s = .next { ok with library := { s.library with matrices := table } } ∧
        ∀ i, Table.getD table i FoldMatrix.initial =
          if i = field b 0 2 then
            let row (at0 : Nat) : List Int := (List.range 8).map fun c => (BitVec.ofNat 16 (field b (at0 + 2 * c) 2)).toInt
            { s.matrix i with staged := { left := row 2, right := row 18 }, pending := true }
          else s.matrix i))

/-- The fields of a QUERY_SAMPLE result for a non-EMPTY entry (R163, R170; the codes of 8.10). -/
def sampleFields (h : Nat) (e : SampleEntry) : List (Nat × Nat) :=
  [(4, h), (1, match e.state with
               | .priming => 1
               | .ready => 2
               | .faulted => 3
               | .retiring => 4),
   (1, match e.fault with
       | none => 0
       | some .read => 1
       | some .check => 2),
   laneField e.lane,
   (1, match e.format with
       | .s16 => 2
       | .s24 => 3
       | .s32 => 4),
   (1, match e.order with
       | .le => 0
       | .be => 1),
   (1, e.channels), (1, e.stride), yesField e.loop.isSome, yesField e.check.isSome,
   (8, e.baseUnit), (4, e.frames), (4, e.headFrames), (4, e.pageBase), (2, e.pageCount),
   (4, (e.loop.map SampleLoop.start).getD 0), (4, (e.loop.map SampleLoop.stop).getD 0),
   (4, (e.check.map BitVec.toNat).getD 0), (2, e.refCount), (2, e.progress)]

/-- The fields of the voice record of a QUERY_VOICE result (R163, R171; the codes of 8.10). -/
def voiceFields (v : Nat) (x : Voice) (e : SampleEntry) : List (Nat × Nat) :=
  let played := x.sourceOffset + x.emit.toNat
  let source :=
    if x.emit < 0 then x.sourceOffset
    else match e.loop with
      | none => played
      | some l =>
        if x.loopInEffect = true ∧ l.stop ≤ played then l.start + (played - l.stop) % (l.stop - l.start) else played
  [(2, v), (1, match x.state with
               | .pending => 1
               | .playing => 2
               | .releasing => 3
               | .stopping => 4),
   (1, match x.quiet with
       | .audible => 0
       | .quiet => 1),
   (1, match x.ramp with
       | none => 0
       | some ⟨.release, _, _, _⟩ => 1
       | some ⟨.stop, _, _, _⟩ => 2),
   yesField x.late, yesField x.loopInEffect, yesField x.releasePoint.isSome,
   (4, x.tag.toNat), (4, x.startOrder.toNat), (4, x.handle), (2, x.zone), (1, x.matrix), (2, x.gain),
   (4, x.releaseLength), (4, x.startPeriod.toNat), (2, x.offset), (4, x.sourceOffset), (1, x.headChunks),
   (4, bits32 x.emit), (4, source), (4, bits32 (x.releasePoint.getD 0)),
   (4, bits32 ((x.ramp.map Ramp.start).getD 0)), (2, (x.ramp.map Ramp.level).getD 0),
   (4, (x.ramp.map Ramp.length).getD 0), (2, rampLevel x.ramp x.emit), (1, x.quietCount), (2, x.dropouts), (2, x.clips)]

/-- The code of a part's mark; 0 is no such part (8.10). -/
def markField (m : Option PartMark) : Nat × Nat :=
  (1, match m with
      | none => 0
      | some .waiting => 1
      | some .outstanding => 2
      | some .filled => 3
      | some .failed => 4)

/-- The fields of a slot record of a QUERY_VOICE result that is not EMPTY (R163, R171; the codes of 8.10). -/
def slotFields (x : Slot) : List (Nat × Nat) :=
  [(1, match x.state with
       | .queued => 1
       | .inFlight => 2
       | .full => 3
       | .lost => 4
       | .draining => 5),
   yesField x.retryUsed, (1, x.marks.length), (1, x.outstanding), markField x.marks[0]?,
   markField x.marks[1]?, yesField x.successor.isSome, (4, x.chunk), (4, x.deadline.toNat),
   (4, x.successor.getD 0)]

/-- `k` steps, none of which stops, lead from `s` to `t`. -/
def stepsTo : Nat → State → State → Prop
  | 0, s, t => t = s
  | k + 1, s, t => ∃ u, step s = .next u ∧ stepsTo k u t

/-- O57. The queries (R163, R170 to R172) change nothing but the queue and the reply. QUERY_SAMPLE answers every field
of the entry, all 0 behind its handle when EMPTY. QUERY_VOICE answers NOT_FOUND for a tag not in the map, and else 221
bytes: the record and its eight slots, of which an EMPTY one has no state, parts, reads or successor, and a chunk and a
deadline that are free values (log 15). QUERY_STATUS reads its 66 bytes from each owner in turn, in the order of the
layout, each lane as it stands when its turn comes, and answers OK when all are read. How many parts are read at once
is a free value, a step on an empty queue reads the next one, and a tick or expiry that opens a pass has those that are
left read first, for the fields are read between passes (the model's reading and choices, log 34): where nothing else
is commanded, as many steps as parts are left fill the reply. Both queries wait for a pass under way to complete, the
unit BUSY until then (log 19), and move the model's own free-value counter (the model's choice, log 22). -/
def Obligations.Queries : Prop :=
  (∀ (s : State) (r : Request) (rest : List Request), s.Takes r rest → r.mark = .unmarked →
    let waits : State := { s with port := { s.port with mgmtQueue := rest }, report := { s.report with busy := some r } }
    (r.kind = 0x23 →
      let h := field r.body 0 4
      (131071 < h → exec .querySample s = .next (s.answered r rest ⟨.badField, 1, 0, []⟩)) ∧
      (h ≤ 131071 → s.entry? h = none →
        exec .querySample s = .next (s.answered r rest ⟨.ok, 0, 0, toBE 4 h ++ List.replicate 47 0⟩)) ∧
      (h ≤ 131071 → ∀ e, s.entry? h = some e →
        exec .querySample s = .next (s.answered r rest ⟨.ok, 0, 0, spelled (sampleFields h e)⟩))) ∧
    (r.kind = 0x28 →
      let told (a : Answer) : State := { s.answered r rest a with freeCount := s.freeCount + 1 }
      (s.pass.isSome = true → exec .queryVoice s = .next waits) ∧
      (s.pass = none → s.TagsDistinct →
        ((∀ row ∈ s.voices, row.2.tag ≠ BitVec.ofNat 32 (field r.body 0 4)) →
          exec .queryVoice s = .next (told ⟨.notFound, 0, 0, []⟩)) ∧
        ∀ v x e, s.voice? v = some x → x.tag = BitVec.ofNat 32 (field r.body 0 4) → s.entry? x.handle = some e →
          ∃ slots : List (List Byte),
            exec .queryVoice s = .next (told ⟨.ok, 0, 0, spelled (voiceFields v x e) ++ slots.flatten⟩) ∧
            slots.length = 8 ∧ ∀ j < 8, ∀ b ∈ slots[j]?,
              match s.slot? v j with
              | none => ∃ chunk deadline : List Byte, chunk.length = 4 ∧ deadline.length = 4 ∧
                  b = List.replicate 7 0 ++ chunk ++ deadline ++ List.replicate 4 0
              | some y => b = spelled (slotFields y))) ∧
    (r.kind = 0x2C →
      (s.pass.isSome = true → exec .queryStatus s = .next waits) ∧
      (s.pass = none → ∃ n : Nat, exec .queryStatus s = .next
        { waits with report := statusRead waits r ⟨[], statusOrder⟩ n, freeCount := s.freeCount + 1 }))) ∧
  ∀ (s : State) (r : Request) (g : StatusReading), s.report.busy = some r → s.report.reading = some g →
    (s.pending = [] → step s = .next { s with report := statusRead s r g 1 }) ∧
    (s.pending = [] → g.left ≠ [] → stepsTo g.left.length s (statusDone s)) ∧
    ∀ (c : Instr) (t : State), (c = .localPeriodTimerExpiry ∨ ∃ elapsed, c = .tick elapsed) → s.pass = none →
      exec c (statusDone s) = .next t → t.pass.isSome = true → exec c s = .next t

/-- O58. The event requests (R182 to R185). The first bad code or mask refuses the request whole. Accepted, every
record is as the entries in list order leave it: EVENT_MASK sets masks alone, EVENT_CLEAR clears raw flag, count and
capture and keeps the mask, EVENT_SET is one occurrence without capture for each entry. When an entry brings its event
into the masked-pending set, one NOTICE of the set that the whole request leaves takes a free place ahead of the reply,
or is held, and none is built where the set is left empty (the model's reading, log 32); the reply OK comes last. -/
def Obligations.EventRequests : Prop :=
  ∀ (s : State) (r : Request) (rest : List Request), s.Takes r rest → r.mark = .unmarked →
    let bad (ordinal : Nat) : Host.Outcome State Fault Refusal :=
      .next (s.answered r rest ⟨.badField, ordinal, 0, []⟩)
    let done (c : Instr) (record : EventKind → EventRecord) (wanted : Prop) : Prop :=
      ∃ (q : Report) (notices : List ControlFrame),
      exec c s = .next { s with port := { s.port with mgmtQueue := rest }, report := q } ∧
      (∀ k, q.event k = record k) ∧ q.endList = s.report.endList ∧ q.busy = none ∧ q.reading = s.report.reading ∧
      q.control = s.report.control ++ notices ++ [.reply r.source r.number r.kind ⟨.ok, 0, 0, []⟩] ∧
      (wanted → q.noticeEntries ≠ [] →
        if s.report.control.length < 15 then notices = [.notice q.noticeEntries] ∧ q.noticeHeld = false
        else notices = [] ∧ q.noticeHeld = true) ∧
      (¬wanted ∨ q.noticeEntries = [] → notices = [] ∧ q.noticeHeld = false)
    (r.kind = 0x29 →
      (∀ ordinal, firstOut (maskRanges r.body) ordinal → exec .eventMask s = bad ordinal) ∧
      ∀ entries : List (EventKind × Bool),
        r.body = entries.flatMap (fun e => [BitVec.ofNat 8 (eventCode e.1), if e.2 then 1 else 0]) →
        let after (k : EventKind) (l : List (EventKind × Bool)) : EventRecord :=
          l.foldl (fun x e => if e.1 = k then x.setMask e.2 else x) (s.report.event k)
        done .eventMask (fun k => after k entries)
          (∃ first k later, entries = first ++ (k, false) :: later ∧ (after k first).raw = true ∧
            (after k first).masked = true)) ∧
    (r.kind = 0x2A →
      (∀ ordinal, firstOut (codeRanges r.body) ordinal → exec .eventClear s = bad ordinal) ∧
      ∀ kinds : List EventKind, r.body = kinds.map (fun k => BitVec.ofNat 8 (eventCode k)) →
        done .eventClear
          (fun k =>
            if k ∈ kinds then { (s.report.event k) with raw := false, pending := false, count := 0, capture := none }
            else s.report.event k)
          False) ∧
    (r.kind = 0x2B →
      (∀ ordinal, firstOut (codeRanges r.body) ordinal → exec .eventSet s = bad ordinal) ∧
      ∀ kinds : List EventKind, r.body = kinds.map (fun k => BitVec.ofNat 8 (eventCode k)) →
        done .eventSet (fun k => kinds.foldl (fun x j => if j = k then x.occur none else x) (s.report.event k))
          (∃ k ∈ kinds, (s.report.event k).raw = false ∧ (s.report.event k).masked = false))

/-- O59. RESYNC (R119, R173): the tracker is in SEARCH with its candidate, timer, windows, count, marker and waiting
list cleared and the render horizon kept, CADENCE_STATE raised when it was not in SEARCH; no voice changes; OK. During
a pass it waits for the completion, the unit BUSY (log 19). A tick that was handed on and not taken is kept (the
model's choice, log 4). -/
def Obligations.Resync : Prop :=
  ∀ (s : State) (r : Request) (rest : List Request), s.Takes r rest → r.kind = 0x2D → r.mark = .unmarked →
    (s.pass.isSome = true → exec .resync s = .next
      { s with port := { s.port with mgmtQueue := rest }, report := { s.report with busy := some r } }) ∧
    (s.pass = none → s.cadence.state = .search → exec .resync s = .next (s.answered r rest ⟨.ok, 0, 0, []⟩)) ∧
    (s.pass = none → s.cadence.state ≠ .search → ∃ q : Report,
      exec .resync s = .next
        { s with port := { s.port with mgmtQueue := rest }, report := q,
                 cadence := { s.cadence with
                   state := .search, misaligned := false, candidate := none, timer := none, missed := 0,
                   errorOpenings := 0, errorCount := 0, severeOpenings := 0, severeCount := 0, severeRaised := false,
                   waiting := [], limitDue := false } } ∧
      (∀ k, q.event k = (s.report.raise
        (.cadenceState s.cadence.state s.cadence.misaligned .search false)).event k) ∧
      q.endList = s.report.endList ∧ q.busy = none ∧ q.reading = s.report.reading ∧
      q.control.getLast? = some (.reply r.source r.number 0x2D ⟨.ok, 0, 0, []⟩))

/-- O60. RESET (R13, R20, R36, R61, R85, R102, R121, R162, R174, R186). Every voice FREE, no end record and no event
raised; raw flags, counts and captures cleared and masks kept; queues, end list and data queue emptied, and with them
the ticks that were handed on and not taken (the model's choice, log 4); the tracker in SEARCH with the horizon
undefined, its clock and last opening time going on (log 7). Kept: every entry but the RETIRING ones, no voice counted
on it and a PRIMING one primed afresh (R20); the articulations, zones and curves, and the matrices with their pending
copies applied (R36); the slots that have reads outstanding, DRAINING and still counting them (R85); the outstanding
reads, those of priming to be DISCARDed (R102); the partner, the configuration, the control queue and DRAM. OK last;
the lanes dispatch at the end (the model's choice, log 11). During a pass it waits for the completion, the unit BUSY
(log 19). -/
def Obligations.Reset : Prop :=
  ∀ (s : State) (r : Request) (rest : List Request), s.Takes r rest → r.kind = 0x2E → r.mark = .unmarked →
    (s.pass.isSome = true → exec .reset s = .next
      { s with port := { s.port with mgmtQueue := rest }, report := { s.report with busy := some r } }) ∧
    (s.pass = none → ∃ u : State, exec .reset s = .next u.dispatch ∧
      ResetLeft { s with port := { s.port with mgmtQueue := rest } } u r)
end

