-- ==== Sys2Proof/Laws/State.lean ====
section
/-! SUPPORT. One lemma for each field and each update of the state, true by rfl. -/

namespace Sys2Proof.Machine

@[simp] theorem State.setPort_port (s : State) (x : Port) : (s.setPort x).port = x := rfl
@[simp] theorem State.setPort_report (s : State) (x : Port) : (s.setPort x).report = s.report := rfl
@[simp] theorem State.setPort_library (s : State) (x : Port) : (s.setPort x).library = s.library := rfl
@[simp] theorem State.setPort_voices (s : State) (x : Port) : (s.setPort x).voices = s.voices := rfl
@[simp] theorem State.setPort_nextOrder (s : State) (x : Port) : (s.setPort x).nextOrder = s.nextOrder := rfl
@[simp] theorem State.setPort_slots (s : State) (x : Port) : (s.setPort x).slots = s.slots := rfl
@[simp] theorem State.setPort_lanes (s : State) (x : Port) : (s.setPort x).lanes = s.lanes := rfl
@[simp] theorem State.setPort_cadence (s : State) (x : Port) : (s.setPort x).cadence = s.cadence := rfl
@[simp] theorem State.setPort_pass (s : State) (x : Port) : (s.setPort x).pass = s.pass := rfl
@[simp] theorem State.setPort_config (s : State) (x : Port) : (s.setPort x).config = s.config := rfl
@[simp] theorem State.setPort_headStore (s : State) (x : Port) : (s.setPort x).headStore = s.headStore := rfl
@[simp] theorem State.setPort_ringStore (s : State) (x : Port) : (s.setPort x).ringStore = s.ringStore := rfl
@[simp] theorem State.setPort_freeCount (s : State) (x : Port) : (s.setPort x).freeCount = s.freeCount := rfl
@[simp] theorem State.setPort_pending (s : State) (x : Port) : (s.setPort x).pending = s.pending := rfl

@[simp] theorem State.setReport_port (s : State) (x : Report) : (s.setReport x).port = s.port := rfl
@[simp] theorem State.setReport_report (s : State) (x : Report) : (s.setReport x).report = x := rfl
@[simp] theorem State.setReport_library (s : State) (x : Report) : (s.setReport x).library = s.library := rfl
@[simp] theorem State.setReport_voices (s : State) (x : Report) : (s.setReport x).voices = s.voices := rfl
@[simp] theorem State.setReport_nextOrder (s : State) (x : Report) : (s.setReport x).nextOrder = s.nextOrder := rfl
@[simp] theorem State.setReport_slots (s : State) (x : Report) : (s.setReport x).slots = s.slots := rfl
@[simp] theorem State.setReport_lanes (s : State) (x : Report) : (s.setReport x).lanes = s.lanes := rfl
@[simp] theorem State.setReport_cadence (s : State) (x : Report) : (s.setReport x).cadence = s.cadence := rfl
@[simp] theorem State.setReport_pass (s : State) (x : Report) : (s.setReport x).pass = s.pass := rfl
@[simp] theorem State.setReport_config (s : State) (x : Report) : (s.setReport x).config = s.config := rfl
@[simp] theorem State.setReport_headStore (s : State) (x : Report) : (s.setReport x).headStore = s.headStore := rfl
@[simp] theorem State.setReport_ringStore (s : State) (x : Report) : (s.setReport x).ringStore = s.ringStore := rfl
@[simp] theorem State.setReport_freeCount (s : State) (x : Report) : (s.setReport x).freeCount = s.freeCount := rfl
@[simp] theorem State.setReport_pending (s : State) (x : Report) : (s.setReport x).pending = s.pending := rfl

@[simp] theorem State.setLibrary_port (s : State) (x : Library) : (s.setLibrary x).port = s.port := rfl
@[simp] theorem State.setLibrary_report (s : State) (x : Library) : (s.setLibrary x).report = s.report := rfl
@[simp] theorem State.setLibrary_library (s : State) (x : Library) : (s.setLibrary x).library = x := rfl
@[simp] theorem State.setLibrary_voices (s : State) (x : Library) : (s.setLibrary x).voices = s.voices := rfl
@[simp] theorem State.setLibrary_nextOrder (s : State) (x : Library) : (s.setLibrary x).nextOrder = s.nextOrder := rfl
@[simp] theorem State.setLibrary_slots (s : State) (x : Library) : (s.setLibrary x).slots = s.slots := rfl
@[simp] theorem State.setLibrary_lanes (s : State) (x : Library) : (s.setLibrary x).lanes = s.lanes := rfl
@[simp] theorem State.setLibrary_cadence (s : State) (x : Library) : (s.setLibrary x).cadence = s.cadence := rfl
@[simp] theorem State.setLibrary_pass (s : State) (x : Library) : (s.setLibrary x).pass = s.pass := rfl
@[simp] theorem State.setLibrary_config (s : State) (x : Library) : (s.setLibrary x).config = s.config := rfl
@[simp] theorem State.setLibrary_headStore (s : State) (x : Library) : (s.setLibrary x).headStore = s.headStore := rfl
@[simp] theorem State.setLibrary_ringStore (s : State) (x : Library) : (s.setLibrary x).ringStore = s.ringStore := rfl
@[simp] theorem State.setLibrary_freeCount (s : State) (x : Library) : (s.setLibrary x).freeCount = s.freeCount := rfl
@[simp] theorem State.setLibrary_pending (s : State) (x : Library) : (s.setLibrary x).pending = s.pending := rfl

@[simp] theorem State.setVoices_port (s : State) (x : Table Voice) : (s.setVoices x).port = s.port := rfl
@[simp] theorem State.setVoices_report (s : State) (x : Table Voice) : (s.setVoices x).report = s.report := rfl
@[simp] theorem State.setVoices_library (s : State) (x : Table Voice) : (s.setVoices x).library = s.library := rfl
@[simp] theorem State.setVoices_voices (s : State) (x : Table Voice) : (s.setVoices x).voices = x := rfl
@[simp] theorem State.setVoices_nextOrder (s : State) (x : Table Voice) : (s.setVoices x).nextOrder = s.nextOrder := rfl
@[simp] theorem State.setVoices_slots (s : State) (x : Table Voice) : (s.setVoices x).slots = s.slots := rfl
@[simp] theorem State.setVoices_lanes (s : State) (x : Table Voice) : (s.setVoices x).lanes = s.lanes := rfl
@[simp] theorem State.setVoices_cadence (s : State) (x : Table Voice) : (s.setVoices x).cadence = s.cadence := rfl
@[simp] theorem State.setVoices_pass (s : State) (x : Table Voice) : (s.setVoices x).pass = s.pass := rfl
@[simp] theorem State.setVoices_config (s : State) (x : Table Voice) : (s.setVoices x).config = s.config := rfl
@[simp] theorem State.setVoices_headStore (s : State) (x : Table Voice) : (s.setVoices x).headStore = s.headStore := rfl
@[simp] theorem State.setVoices_ringStore (s : State) (x : Table Voice) : (s.setVoices x).ringStore = s.ringStore := rfl
@[simp] theorem State.setVoices_freeCount (s : State) (x : Table Voice) : (s.setVoices x).freeCount = s.freeCount := rfl
@[simp] theorem State.setVoices_pending (s : State) (x : Table Voice) : (s.setVoices x).pending = s.pending := rfl

@[simp] theorem State.setNextOrder_port (s : State) (x : StartOrder) : (s.setNextOrder x).port = s.port := rfl
@[simp] theorem State.setNextOrder_report (s : State) (x : StartOrder) : (s.setNextOrder x).report = s.report := rfl
@[simp] theorem State.setNextOrder_library (s : State) (x : StartOrder) : (s.setNextOrder x).library = s.library := rfl
@[simp] theorem State.setNextOrder_voices (s : State) (x : StartOrder) : (s.setNextOrder x).voices = s.voices := rfl
@[simp] theorem State.setNextOrder_nextOrder (s : State) (x : StartOrder) : (s.setNextOrder x).nextOrder = x := rfl
@[simp] theorem State.setNextOrder_slots (s : State) (x : StartOrder) : (s.setNextOrder x).slots = s.slots := rfl
@[simp] theorem State.setNextOrder_lanes (s : State) (x : StartOrder) : (s.setNextOrder x).lanes = s.lanes := rfl
@[simp] theorem State.setNextOrder_cadence (s : State) (x : StartOrder) : (s.setNextOrder x).cadence = s.cadence := rfl
@[simp] theorem State.setNextOrder_pass (s : State) (x : StartOrder) : (s.setNextOrder x).pass = s.pass := rfl
@[simp] theorem State.setNextOrder_config (s : State) (x : StartOrder) : (s.setNextOrder x).config = s.config := rfl
@[simp] theorem State.setNextOrder_headStore (s : State) (x : StartOrder) : (s.setNextOrder x).headStore = s.headStore := rfl
@[simp] theorem State.setNextOrder_ringStore (s : State) (x : StartOrder) : (s.setNextOrder x).ringStore = s.ringStore := rfl
@[simp] theorem State.setNextOrder_freeCount (s : State) (x : StartOrder) : (s.setNextOrder x).freeCount = s.freeCount := rfl
@[simp] theorem State.setNextOrder_pending (s : State) (x : StartOrder) : (s.setNextOrder x).pending = s.pending := rfl

@[simp] theorem State.setSlots_port (s : State) (x : Table Slot) : (s.setSlots x).port = s.port := rfl
@[simp] theorem State.setSlots_report (s : State) (x : Table Slot) : (s.setSlots x).report = s.report := rfl
@[simp] theorem State.setSlots_library (s : State) (x : Table Slot) : (s.setSlots x).library = s.library := rfl
@[simp] theorem State.setSlots_voices (s : State) (x : Table Slot) : (s.setSlots x).voices = s.voices := rfl
@[simp] theorem State.setSlots_nextOrder (s : State) (x : Table Slot) : (s.setSlots x).nextOrder = s.nextOrder := rfl
@[simp] theorem State.setSlots_slots (s : State) (x : Table Slot) : (s.setSlots x).slots = x := rfl
@[simp] theorem State.setSlots_lanes (s : State) (x : Table Slot) : (s.setSlots x).lanes = s.lanes := rfl
@[simp] theorem State.setSlots_cadence (s : State) (x : Table Slot) : (s.setSlots x).cadence = s.cadence := rfl
@[simp] theorem State.setSlots_pass (s : State) (x : Table Slot) : (s.setSlots x).pass = s.pass := rfl
@[simp] theorem State.setSlots_config (s : State) (x : Table Slot) : (s.setSlots x).config = s.config := rfl
@[simp] theorem State.setSlots_headStore (s : State) (x : Table Slot) : (s.setSlots x).headStore = s.headStore := rfl
@[simp] theorem State.setSlots_ringStore (s : State) (x : Table Slot) : (s.setSlots x).ringStore = s.ringStore := rfl
@[simp] theorem State.setSlots_freeCount (s : State) (x : Table Slot) : (s.setSlots x).freeCount = s.freeCount := rfl
@[simp] theorem State.setSlots_pending (s : State) (x : Table Slot) : (s.setSlots x).pending = s.pending := rfl

@[simp] theorem State.setLanes_port (s : State) (x : PerLane Lane) : (s.setLanes x).port = s.port := rfl
@[simp] theorem State.setLanes_report (s : State) (x : PerLane Lane) : (s.setLanes x).report = s.report := rfl
@[simp] theorem State.setLanes_library (s : State) (x : PerLane Lane) : (s.setLanes x).library = s.library := rfl
@[simp] theorem State.setLanes_voices (s : State) (x : PerLane Lane) : (s.setLanes x).voices = s.voices := rfl
@[simp] theorem State.setLanes_nextOrder (s : State) (x : PerLane Lane) : (s.setLanes x).nextOrder = s.nextOrder := rfl
@[simp] theorem State.setLanes_slots (s : State) (x : PerLane Lane) : (s.setLanes x).slots = s.slots := rfl
@[simp] theorem State.setLanes_lanes (s : State) (x : PerLane Lane) : (s.setLanes x).lanes = x := rfl
@[simp] theorem State.setLanes_cadence (s : State) (x : PerLane Lane) : (s.setLanes x).cadence = s.cadence := rfl
@[simp] theorem State.setLanes_pass (s : State) (x : PerLane Lane) : (s.setLanes x).pass = s.pass := rfl
@[simp] theorem State.setLanes_config (s : State) (x : PerLane Lane) : (s.setLanes x).config = s.config := rfl
@[simp] theorem State.setLanes_headStore (s : State) (x : PerLane Lane) : (s.setLanes x).headStore = s.headStore := rfl
@[simp] theorem State.setLanes_ringStore (s : State) (x : PerLane Lane) : (s.setLanes x).ringStore = s.ringStore := rfl
@[simp] theorem State.setLanes_freeCount (s : State) (x : PerLane Lane) : (s.setLanes x).freeCount = s.freeCount := rfl
@[simp] theorem State.setLanes_pending (s : State) (x : PerLane Lane) : (s.setLanes x).pending = s.pending := rfl

@[simp] theorem State.setCadence_port (s : State) (x : Cadence) : (s.setCadence x).port = s.port := rfl
@[simp] theorem State.setCadence_report (s : State) (x : Cadence) : (s.setCadence x).report = s.report := rfl
@[simp] theorem State.setCadence_library (s : State) (x : Cadence) : (s.setCadence x).library = s.library := rfl
@[simp] theorem State.setCadence_voices (s : State) (x : Cadence) : (s.setCadence x).voices = s.voices := rfl
@[simp] theorem State.setCadence_nextOrder (s : State) (x : Cadence) : (s.setCadence x).nextOrder = s.nextOrder := rfl
@[simp] theorem State.setCadence_slots (s : State) (x : Cadence) : (s.setCadence x).slots = s.slots := rfl
@[simp] theorem State.setCadence_lanes (s : State) (x : Cadence) : (s.setCadence x).lanes = s.lanes := rfl
@[simp] theorem State.setCadence_cadence (s : State) (x : Cadence) : (s.setCadence x).cadence = x := rfl
@[simp] theorem State.setCadence_pass (s : State) (x : Cadence) : (s.setCadence x).pass = s.pass := rfl
@[simp] theorem State.setCadence_config (s : State) (x : Cadence) : (s.setCadence x).config = s.config := rfl
@[simp] theorem State.setCadence_headStore (s : State) (x : Cadence) : (s.setCadence x).headStore = s.headStore := rfl
@[simp] theorem State.setCadence_ringStore (s : State) (x : Cadence) : (s.setCadence x).ringStore = s.ringStore := rfl
@[simp] theorem State.setCadence_freeCount (s : State) (x : Cadence) : (s.setCadence x).freeCount = s.freeCount := rfl
@[simp] theorem State.setCadence_pending (s : State) (x : Cadence) : (s.setCadence x).pending = s.pending := rfl

@[simp] theorem State.setPass_port (s : State) (x : Option Pass) : (s.setPass x).port = s.port := rfl
@[simp] theorem State.setPass_report (s : State) (x : Option Pass) : (s.setPass x).report = s.report := rfl
@[simp] theorem State.setPass_library (s : State) (x : Option Pass) : (s.setPass x).library = s.library := rfl
@[simp] theorem State.setPass_voices (s : State) (x : Option Pass) : (s.setPass x).voices = s.voices := rfl
@[simp] theorem State.setPass_nextOrder (s : State) (x : Option Pass) : (s.setPass x).nextOrder = s.nextOrder := rfl
@[simp] theorem State.setPass_slots (s : State) (x : Option Pass) : (s.setPass x).slots = s.slots := rfl
@[simp] theorem State.setPass_lanes (s : State) (x : Option Pass) : (s.setPass x).lanes = s.lanes := rfl
@[simp] theorem State.setPass_cadence (s : State) (x : Option Pass) : (s.setPass x).cadence = s.cadence := rfl
@[simp] theorem State.setPass_pass (s : State) (x : Option Pass) : (s.setPass x).pass = x := rfl
@[simp] theorem State.setPass_config (s : State) (x : Option Pass) : (s.setPass x).config = s.config := rfl
@[simp] theorem State.setPass_headStore (s : State) (x : Option Pass) : (s.setPass x).headStore = s.headStore := rfl
@[simp] theorem State.setPass_ringStore (s : State) (x : Option Pass) : (s.setPass x).ringStore = s.ringStore := rfl
@[simp] theorem State.setPass_freeCount (s : State) (x : Option Pass) : (s.setPass x).freeCount = s.freeCount := rfl
@[simp] theorem State.setPass_pending (s : State) (x : Option Pass) : (s.setPass x).pending = s.pending := rfl

@[simp] theorem State.setConfig_port (s : State) (x : Configuration) : (s.setConfig x).port = s.port := rfl
@[simp] theorem State.setConfig_report (s : State) (x : Configuration) : (s.setConfig x).report = s.report := rfl
@[simp] theorem State.setConfig_library (s : State) (x : Configuration) : (s.setConfig x).library = s.library := rfl
@[simp] theorem State.setConfig_voices (s : State) (x : Configuration) : (s.setConfig x).voices = s.voices := rfl
@[simp] theorem State.setConfig_nextOrder (s : State) (x : Configuration) : (s.setConfig x).nextOrder = s.nextOrder := rfl
@[simp] theorem State.setConfig_slots (s : State) (x : Configuration) : (s.setConfig x).slots = s.slots := rfl
@[simp] theorem State.setConfig_lanes (s : State) (x : Configuration) : (s.setConfig x).lanes = s.lanes := rfl
@[simp] theorem State.setConfig_cadence (s : State) (x : Configuration) : (s.setConfig x).cadence = s.cadence := rfl
@[simp] theorem State.setConfig_pass (s : State) (x : Configuration) : (s.setConfig x).pass = s.pass := rfl
@[simp] theorem State.setConfig_config (s : State) (x : Configuration) : (s.setConfig x).config = x := rfl
@[simp] theorem State.setConfig_headStore (s : State) (x : Configuration) : (s.setConfig x).headStore = s.headStore := rfl
@[simp] theorem State.setConfig_ringStore (s : State) (x : Configuration) : (s.setConfig x).ringStore = s.ringStore := rfl
@[simp] theorem State.setConfig_freeCount (s : State) (x : Configuration) : (s.setConfig x).freeCount = s.freeCount := rfl
@[simp] theorem State.setConfig_pending (s : State) (x : Configuration) : (s.setConfig x).pending = s.pending := rfl

@[simp] theorem State.setHeadStore_port (s : State) (x : Memory) : (s.setHeadStore x).port = s.port := rfl
@[simp] theorem State.setHeadStore_report (s : State) (x : Memory) : (s.setHeadStore x).report = s.report := rfl
@[simp] theorem State.setHeadStore_library (s : State) (x : Memory) : (s.setHeadStore x).library = s.library := rfl
@[simp] theorem State.setHeadStore_voices (s : State) (x : Memory) : (s.setHeadStore x).voices = s.voices := rfl
@[simp] theorem State.setHeadStore_nextOrder (s : State) (x : Memory) : (s.setHeadStore x).nextOrder = s.nextOrder := rfl
@[simp] theorem State.setHeadStore_slots (s : State) (x : Memory) : (s.setHeadStore x).slots = s.slots := rfl
@[simp] theorem State.setHeadStore_lanes (s : State) (x : Memory) : (s.setHeadStore x).lanes = s.lanes := rfl
@[simp] theorem State.setHeadStore_cadence (s : State) (x : Memory) : (s.setHeadStore x).cadence = s.cadence := rfl
@[simp] theorem State.setHeadStore_pass (s : State) (x : Memory) : (s.setHeadStore x).pass = s.pass := rfl
@[simp] theorem State.setHeadStore_config (s : State) (x : Memory) : (s.setHeadStore x).config = s.config := rfl
@[simp] theorem State.setHeadStore_headStore (s : State) (x : Memory) : (s.setHeadStore x).headStore = x := rfl
@[simp] theorem State.setHeadStore_ringStore (s : State) (x : Memory) : (s.setHeadStore x).ringStore = s.ringStore := rfl
@[simp] theorem State.setHeadStore_freeCount (s : State) (x : Memory) : (s.setHeadStore x).freeCount = s.freeCount := rfl
@[simp] theorem State.setHeadStore_pending (s : State) (x : Memory) : (s.setHeadStore x).pending = s.pending := rfl

@[simp] theorem State.setRingStore_port (s : State) (x : Memory) : (s.setRingStore x).port = s.port := rfl
@[simp] theorem State.setRingStore_report (s : State) (x : Memory) : (s.setRingStore x).report = s.report := rfl
@[simp] theorem State.setRingStore_library (s : State) (x : Memory) : (s.setRingStore x).library = s.library := rfl
@[simp] theorem State.setRingStore_voices (s : State) (x : Memory) : (s.setRingStore x).voices = s.voices := rfl
@[simp] theorem State.setRingStore_nextOrder (s : State) (x : Memory) : (s.setRingStore x).nextOrder = s.nextOrder := rfl
@[simp] theorem State.setRingStore_slots (s : State) (x : Memory) : (s.setRingStore x).slots = s.slots := rfl
@[simp] theorem State.setRingStore_lanes (s : State) (x : Memory) : (s.setRingStore x).lanes = s.lanes := rfl
@[simp] theorem State.setRingStore_cadence (s : State) (x : Memory) : (s.setRingStore x).cadence = s.cadence := rfl
@[simp] theorem State.setRingStore_pass (s : State) (x : Memory) : (s.setRingStore x).pass = s.pass := rfl
@[simp] theorem State.setRingStore_config (s : State) (x : Memory) : (s.setRingStore x).config = s.config := rfl
@[simp] theorem State.setRingStore_headStore (s : State) (x : Memory) : (s.setRingStore x).headStore = s.headStore := rfl
@[simp] theorem State.setRingStore_ringStore (s : State) (x : Memory) : (s.setRingStore x).ringStore = x := rfl
@[simp] theorem State.setRingStore_freeCount (s : State) (x : Memory) : (s.setRingStore x).freeCount = s.freeCount := rfl
@[simp] theorem State.setRingStore_pending (s : State) (x : Memory) : (s.setRingStore x).pending = s.pending := rfl

@[simp] theorem State.setFreeCount_port (s : State) (x : Nat) : (s.setFreeCount x).port = s.port := rfl
@[simp] theorem State.setFreeCount_report (s : State) (x : Nat) : (s.setFreeCount x).report = s.report := rfl
@[simp] theorem State.setFreeCount_library (s : State) (x : Nat) : (s.setFreeCount x).library = s.library := rfl
@[simp] theorem State.setFreeCount_voices (s : State) (x : Nat) : (s.setFreeCount x).voices = s.voices := rfl
@[simp] theorem State.setFreeCount_nextOrder (s : State) (x : Nat) : (s.setFreeCount x).nextOrder = s.nextOrder := rfl
@[simp] theorem State.setFreeCount_slots (s : State) (x : Nat) : (s.setFreeCount x).slots = s.slots := rfl
@[simp] theorem State.setFreeCount_lanes (s : State) (x : Nat) : (s.setFreeCount x).lanes = s.lanes := rfl
@[simp] theorem State.setFreeCount_cadence (s : State) (x : Nat) : (s.setFreeCount x).cadence = s.cadence := rfl
@[simp] theorem State.setFreeCount_pass (s : State) (x : Nat) : (s.setFreeCount x).pass = s.pass := rfl
@[simp] theorem State.setFreeCount_config (s : State) (x : Nat) : (s.setFreeCount x).config = s.config := rfl
@[simp] theorem State.setFreeCount_headStore (s : State) (x : Nat) : (s.setFreeCount x).headStore = s.headStore := rfl
@[simp] theorem State.setFreeCount_ringStore (s : State) (x : Nat) : (s.setFreeCount x).ringStore = s.ringStore := rfl
@[simp] theorem State.setFreeCount_freeCount (s : State) (x : Nat) : (s.setFreeCount x).freeCount = x := rfl
@[simp] theorem State.setFreeCount_pending (s : State) (x : Nat) : (s.setFreeCount x).pending = s.pending := rfl

@[simp] theorem State.setPending_port (s : State) (x : List Instr) : (s.setPending x).port = s.port := rfl
@[simp] theorem State.setPending_report (s : State) (x : List Instr) : (s.setPending x).report = s.report := rfl
@[simp] theorem State.setPending_library (s : State) (x : List Instr) : (s.setPending x).library = s.library := rfl
@[simp] theorem State.setPending_voices (s : State) (x : List Instr) : (s.setPending x).voices = s.voices := rfl
@[simp] theorem State.setPending_nextOrder (s : State) (x : List Instr) : (s.setPending x).nextOrder = s.nextOrder := rfl
@[simp] theorem State.setPending_slots (s : State) (x : List Instr) : (s.setPending x).slots = s.slots := rfl
@[simp] theorem State.setPending_lanes (s : State) (x : List Instr) : (s.setPending x).lanes = s.lanes := rfl
@[simp] theorem State.setPending_cadence (s : State) (x : List Instr) : (s.setPending x).cadence = s.cadence := rfl
@[simp] theorem State.setPending_pass (s : State) (x : List Instr) : (s.setPending x).pass = s.pass := rfl
@[simp] theorem State.setPending_config (s : State) (x : List Instr) : (s.setPending x).config = s.config := rfl
@[simp] theorem State.setPending_headStore (s : State) (x : List Instr) : (s.setPending x).headStore = s.headStore := rfl
@[simp] theorem State.setPending_ringStore (s : State) (x : List Instr) : (s.setPending x).ringStore = s.ringStore := rfl
@[simp] theorem State.setPending_freeCount (s : State) (x : List Instr) : (s.setPending x).freeCount = s.freeCount := rfl
@[simp] theorem State.setPending_pending (s : State) (x : List Instr) : (s.setPending x).pending = x := rfl

end Sys2Proof.Machine
end

