-- ==== Sys2Proof/Laws/Frame.lean ====
section
/-! SUPPORT. What each shared operation may change: for each, the parts of the state outside a list stay as they were.
Frames compose (`trans`) and widen (`wider`), so that the frame of an operation follows from those it calls. -/

namespace Sys2Proof.Machine

/-- The fourteen parts of the state. -/
inductive Part where
  | port
  | report
  | library
  | voices
  | nextOrder
  | slots
  | lanes
  | cadence
  | pass
  | config
  | headStore
  | ringStore
  | freeCount
  | pending
deriving DecidableEq, Repr

/-- A part is in `t` as it is in `s`. -/
def Part.Same (s t : State) : Part → Prop
  | .port => t.port = s.port
  | .report => t.report = s.report
  | .library => t.library = s.library
  | .voices => t.voices = s.voices
  | .nextOrder => t.nextOrder = s.nextOrder
  | .slots => t.slots = s.slots
  | .lanes => t.lanes = s.lanes
  | .cadence => t.cadence = s.cadence
  | .pass => t.pass = s.pass
  | .config => t.config = s.config
  | .headStore => t.headStore = s.headStore
  | .ringStore => t.ringStore = s.ringStore
  | .freeCount => t.freeCount = s.freeCount
  | .pending => t.pending = s.pending

/-- `t` differs from `s` in the listed parts only. -/
def State.ChangesOnly (s t : State) (ps : List Part) : Prop :=
  ∀ p, p ∉ ps → p.Same s t

namespace State.ChangesOnly

variable {s t u : State} {ps qs : List Part}

theorem refl (s : State) (ps : List Part) : s.ChangesOnly s ps := by
  intro p _
  cases p <;> rfl

theorem trans (h : s.ChangesOnly t ps) (k : t.ChangesOnly u ps) : s.ChangesOnly u ps := by
  intro p hp
  have a := h p hp
  have b := k p hp
  cases p <;> exact Eq.trans b a

theorem wider (h : s.ChangesOnly t ps) (sub : ∀ p ∈ ps, p ∈ qs) : s.ChangesOnly t qs :=
  fun p hp => h p fun m => hp (sub p m)

theorem port (h : s.ChangesOnly t ps) (n : Part.port ∉ ps) : t.port = s.port := h _ n
theorem report (h : s.ChangesOnly t ps) (n : Part.report ∉ ps) : t.report = s.report := h _ n
theorem library (h : s.ChangesOnly t ps) (n : Part.library ∉ ps) : t.library = s.library := h _ n
theorem voices (h : s.ChangesOnly t ps) (n : Part.voices ∉ ps) : t.voices = s.voices := h _ n
theorem nextOrder (h : s.ChangesOnly t ps) (n : Part.nextOrder ∉ ps) : t.nextOrder = s.nextOrder := h _ n
theorem slots (h : s.ChangesOnly t ps) (n : Part.slots ∉ ps) : t.slots = s.slots := h _ n
theorem lanes (h : s.ChangesOnly t ps) (n : Part.lanes ∉ ps) : t.lanes = s.lanes := h _ n
theorem cadence (h : s.ChangesOnly t ps) (n : Part.cadence ∉ ps) : t.cadence = s.cadence := h _ n
theorem pass (h : s.ChangesOnly t ps) (n : Part.pass ∉ ps) : t.pass = s.pass := h _ n
theorem config (h : s.ChangesOnly t ps) (n : Part.config ∉ ps) : t.config = s.config := h _ n
theorem headStore (h : s.ChangesOnly t ps) (n : Part.headStore ∉ ps) : t.headStore = s.headStore := h _ n
theorem ringStore (h : s.ChangesOnly t ps) (n : Part.ringStore ∉ ps) : t.ringStore = s.ringStore := h _ n
theorem freeCount (h : s.ChangesOnly t ps) (n : Part.freeCount ∉ ps) : t.freeCount = s.freeCount := h _ n
theorem pending (h : s.ChangesOnly t ps) (n : Part.pending ∉ ps) : t.pending = s.pending := h _ n

end State.ChangesOnly

/-- A fold of steps that each change the listed parts only changes those only. -/
theorem State.foldl_changes {α : Type} {ps : List Part} (f : State → α → State)
    (h : ∀ (s : State) (a : α), s.ChangesOnly (f s a) ps) (l : List α) (s : State) : s.ChangesOnly (l.foldl f s) ps := by
  induction l generalizing s with
  | nil => exact .refl _ _
  | cons a rest ih => exact (h s a).trans (ih _)

/-! ### The updates -/

theorem State.setPort_changes (s : State) (x : Port) : s.ChangesOnly (s.setPort x) [.port] := by
  intro p h; cases p <;> first | rfl | exact absurd (by decide) h
theorem State.setReport_changes (s : State) (x : Report) : s.ChangesOnly (s.setReport x) [.report] := by
  intro p h; cases p <;> first | rfl | exact absurd (by decide) h
theorem State.setLibrary_changes (s : State) (x : Library) : s.ChangesOnly (s.setLibrary x) [.library] := by
  intro p h; cases p <;> first | rfl | exact absurd (by decide) h
theorem State.setVoices_changes (s : State) (x : Table Voice) : s.ChangesOnly (s.setVoices x) [.voices] := by
  intro p h; cases p <;> first | rfl | exact absurd (by decide) h
theorem State.setNextOrder_changes (s : State) (x : StartOrder) : s.ChangesOnly (s.setNextOrder x) [.nextOrder] := by
  intro p h; cases p <;> first | rfl | exact absurd (by decide) h
theorem State.setSlots_changes (s : State) (x : Table Slot) : s.ChangesOnly (s.setSlots x) [.slots] := by
  intro p h; cases p <;> first | rfl | exact absurd (by decide) h
theorem State.setLanes_changes (s : State) (x : PerLane Lane) : s.ChangesOnly (s.setLanes x) [.lanes] := by
  intro p h; cases p <;> first | rfl | exact absurd (by decide) h
theorem State.setCadence_changes (s : State) (x : Cadence) : s.ChangesOnly (s.setCadence x) [.cadence] := by
  intro p h; cases p <;> first | rfl | exact absurd (by decide) h
theorem State.setPass_changes (s : State) (x : Option Pass) : s.ChangesOnly (s.setPass x) [.pass] := by
  intro p h; cases p <;> first | rfl | exact absurd (by decide) h
theorem State.setConfig_changes (s : State) (x : Configuration) : s.ChangesOnly (s.setConfig x) [.config] := by
  intro p h; cases p <;> first | rfl | exact absurd (by decide) h
theorem State.setHeadStore_changes (s : State) (x : Memory) : s.ChangesOnly (s.setHeadStore x) [.headStore] := by
  intro p h; cases p <;> first | rfl | exact absurd (by decide) h
theorem State.setRingStore_changes (s : State) (x : Memory) : s.ChangesOnly (s.setRingStore x) [.ringStore] := by
  intro p h; cases p <;> first | rfl | exact absurd (by decide) h
theorem State.setFreeCount_changes (s : State) (x : Nat) : s.ChangesOnly (s.setFreeCount x) [.freeCount] := by
  intro p h; cases p <;> first | rfl | exact absurd (by decide) h

end Sys2Proof.Machine
end

