-- ==== Sys2Proof/Laws/Memory.lean ====
section
/-! SUPPORT. Memories: reading after a write, inside and outside the written bytes, and that a write keeps the one form. -/

namespace Sys2Proof.Machine

theorem Memory.read_append (m n : Memory) (a : Nat) (h : ∀ cell ∈ m, cell.1 ≠ a) :
    Memory.read (m ++ n) a = Memory.read n a := by
  induction m with
  | nil => rfl
  | cons c rest ih =>
    obtain ⟨i, b⟩ := c
    have hi : i ≠ a := h (i, b) (by simp)
    simp [Memory.read, hi, ih fun c m => h c (by simp [m])]

theorem Memory.read_filter (m : Memory) (p : Nat → Bool) (a : Nat) (h : p a = true) :
    Memory.read (m.filter fun c => p c.1) a = Memory.read m a := by
  induction m with
  | nil => rfl
  | cons c rest ih =>
    obtain ⟨i, b⟩ := c
    by_cases hp : p i = true
    · simp [List.filter, hp, Memory.read, ih]
    · have : i ≠ a := fun e => hp (e ▸ h)
      simp [List.filter, hp, Memory.read, this, ih]

/-- An address that no entry names reads as unlisted. -/
theorem Memory.read_unlisted (m : Memory) (a : Nat) (h : ∀ cell ∈ m, cell.1 ≠ a) :
    Memory.read m a = Memory.unlisted := by
  have := Memory.read_append m [] a h
  rwa [List.append_nil] at this

theorem Memory.cells_range (a : Nat) (bytes : List Byte) :
    ∀ cell ∈ Memory.cells a bytes, a ≤ cell.1 ∧ cell.1 < a + bytes.length ∧ cell.2 ≠ Memory.unlisted := by
  induction bytes generalizing a with
  | nil => simp [Memory.cells]
  | cons b rest ih =>
    intro cell m
    unfold Memory.cells at m
    split at m
    · have := ih (a + 1) cell m
      simp only [List.length_cons]
      exact ⟨by omega, by omega, this.2.2⟩
    · rename_i ne
      simp only [List.length_cons]
      rcases List.mem_cons.1 m with e | m
      · subst e; exact ⟨by simp, by simp, ne⟩
      · have := ih (a + 1) cell m
        exact ⟨by omega, by omega, this.2.2⟩

theorem Memory.cells_pairwise (a : Nat) (bytes : List Byte) :
    (Memory.cells a bytes).Pairwise fun x y => x.1 < y.1 := by
  induction bytes generalizing a with
  | nil => simp [Memory.cells]
  | cons b rest ih =>
    unfold Memory.cells
    split
    · exact ih _
    · refine List.pairwise_cons.2 ⟨fun cell m => ?_, ih _⟩
      have := Memory.cells_range (a + 1) rest cell m
      show a < cell.1
      omega

theorem Memory.read_cells (a : Nat) (bytes : List Byte) (n : Memory) (i : Nat) (h : i < bytes.length)
    (out : ∀ cell ∈ n, cell.1 ≠ a + i) : Memory.read (Memory.cells a bytes ++ n) (a + i) = bytes[i] := by
  induction bytes generalizing a i with
  | nil => simp at h
  | cons b rest ih =>
    cases i with
    | zero =>
      unfold Memory.cells
      split
      · rename_i e
        rw [Memory.read_unlisted]
        · simp [e]
        · intro cell m
          rcases List.mem_append.1 m with m | m
          · have := Memory.cells_range (a + 1) rest cell m
            omega
          · exact out cell m
      · simp [Memory.read]
    | succ j =>
      have key : Memory.read (Memory.cells (a + 1) rest ++ n) (a + 1 + j) = rest[j]'(by simpa using h) :=
        ih (a + 1) j (by simpa using h) (fun cell m => by have := out cell m; omega)
      unfold Memory.cells
      split
      · simpa [Nat.add_assoc, Nat.add_comm 1 j] using key
      · have ne : a ≠ a + (j + 1) := by omega
        simp only [List.cons_append, Memory.read, if_neg ne]
        simpa [Nat.add_assoc, Nat.add_comm 1 j] using key

/-- Reading inside the written bytes gives the byte written. -/
theorem Memory.read_write_inside (m : Memory) (a : Nat) (bytes : List Byte) (i : Nat) (h : i < bytes.length) :
    Memory.read (Memory.write m a bytes) (a + i) = bytes[i] := by
  unfold Memory.write
  rw [List.append_assoc, Memory.read_append]
  · exact Memory.read_cells a bytes _ i h fun cell m => by simp at m; omega
  · intro cell m; simp at m; omega

/-- Reading outside the written bytes gives what it gave before. -/
theorem Memory.read_write_outside (m : Memory) (a : Nat) (bytes : List Byte) (i : Nat)
    (h : i < a ∨ a + bytes.length ≤ i) : Memory.read (Memory.write m a bytes) i = Memory.read m i := by
  unfold Memory.write
  rcases h with h | h
  · by_cases e : ∃ cell ∈ m, cell.1 = i
    · have hf := Memory.read_filter m (fun k => decide (k < a)) i (by simpa using h)
      rw [← hf]
      generalize hl : m.filter (fun c => decide (c.1 < a)) = l
      have : ∃ cell ∈ l, cell.1 = i := by
        obtain ⟨c, hc, e⟩ := e
        exact ⟨c, by rw [← hl]; simp [hc, e, h], e⟩
      clear hf hl
      rw [List.append_assoc]
      generalize Memory.cells a bytes ++ _ = n
      induction l with
      | nil => simp at this
      | cons c rest ih =>
        obtain ⟨j, b⟩ := c
        by_cases hj : j = i
        · simp [Memory.read, hj]
        · simp only [List.cons_append, Memory.read, if_neg hj]
          refine ih ?_
          obtain ⟨c, hc, e⟩ := this
          rcases List.mem_cons.1 hc with q | q
          · subst q; exact absurd e hj
          · exact ⟨c, q, e⟩
    · have none : ∀ cell ∈ m, cell.1 ≠ i := fun cell hc q => e ⟨cell, hc, q⟩
      rw [Memory.read_unlisted m i none, Memory.read_unlisted]
      intro cell hc
      rcases List.mem_append.1 hc with hc | hc
      · rcases List.mem_append.1 hc with hc | hc
        · exact none cell (List.mem_filter.1 hc).1
        · have := Memory.cells_range a bytes cell hc
          omega
      · exact none cell (List.mem_filter.1 hc).1
  · rw [Memory.read_append]
    · exact Memory.read_filter m (fun k => decide (a + bytes.length ≤ k)) i (by simpa using h)
    · intro cell hc
      rcases List.mem_append.1 hc with hc | hc
      · simp at hc; omega
      · have := Memory.cells_range a bytes cell hc
        omega

/-- A write keeps the one form of a memory. -/
theorem Memory.wf_write (m : Memory) (a : Nat) (bytes : List Byte) (h : Memory.wf m) :
    Memory.wf (Memory.write m a bytes) := by
  obtain ⟨rise, listed⟩ := h
  unfold Memory.write
  refine ⟨?_, ?_⟩
  · rw [List.pairwise_append, List.pairwise_append]
    refine ⟨⟨rise.filter _, Memory.cells_pairwise _ _, ?_⟩, rise.filter _, ?_⟩
    · intro x hx y hy
      have := Memory.cells_range a bytes y hy
      simp at hx; omega
    · intro x hx y hy
      simp at hy
      rcases List.mem_append.1 hx with hx | hx
      · simp at hx; omega
      · have := Memory.cells_range a bytes x hx
        omega
  · intro cell hc
    rcases List.mem_append.1 hc with hc | hc
    · rcases List.mem_append.1 hc with hc | hc
      · exact listed cell (List.mem_filter.1 hc).1
      · exact (Memory.cells_range a bytes cell hc).2.2
    · exact listed cell (List.mem_filter.1 hc).1

end Sys2Proof.Machine
end

