-- ==== Sys2Proof/Laws/Table.lean ====
section
/-! SUPPORT. Tables: reading after a write, after an erasure, and that both keep the indices rising. -/

namespace Sys2Proof.Machine

variable {α : Type}

@[simp] theorem Table.get?_nil (k : Nat) : Table.get? ([] : Table α) k = none := rfl

theorem Table.get?_cons (i : Nat) (a : α) (t : Table α) (k : Nat) :
    Table.get? ((i, a) :: t) k = if i = k then some a else Table.get? t k := rfl

/-- An index below every listed one is not listed. -/
theorem Table.get?_none_of_lt {t : Table α} {k : Nat} (h : ∀ row ∈ t, k < row.1) : Table.get? t k = none := by
  induction t with
  | nil => rfl
  | cons row rest ih =>
    obtain ⟨i, a⟩ := row
    have hi : k < i := h (i, a) (by simp)
    simp [Table.get?_cons, Nat.ne_of_gt hi, ih fun r m => h r (by simp [m])]

/-- A record read back is listed. -/
theorem Table.mem_of_get? {t : Table α} {k : Nat} {a : α} (h : Table.get? t k = some a) : (k, a) ∈ t := by
  induction t with
  | nil => simp at h
  | cons row rest ih =>
    obtain ⟨i, b⟩ := row
    rw [Table.get?_cons] at h
    split at h
    · rename_i e; subst e; simp_all
    · exact List.mem_cons_of_mem _ (ih h)

/-- A listed record is read back, the indices rising. -/
theorem Table.get?_of_mem {t : Table α} (r : Table.Rising t) {k : Nat} {a : α} (h : (k, a) ∈ t) :
    Table.get? t k = some a := by
  induction t with
  | nil => simp at h
  | cons row rest ih =>
    obtain ⟨i, b⟩ := row
    have r := List.pairwise_cons.1 r
    rcases List.mem_cons.1 h with e | m
    · cases e; simp [Table.get?_cons]
    · have : i < k := r.1 (k, a) m
      simp [Table.get?_cons, Nat.ne_of_lt this, ih r.2 m]

/-- Reading after a write: the record written at its index, the others as before. -/
@[simp] theorem Table.get?_insert (t : Table α) (k j : Nat) (a : α) :
    Table.get? (Table.insert t k a) j = if j = k then some a else Table.get? t j := by
  induction t with
  | nil =>
    by_cases h : j = k
    · simp [Table.insert, Table.get?_cons, h]
    · simp [Table.insert, Table.get?_cons, h, Ne.symm h]
  | cons row rest ih =>
    obtain ⟨i, b⟩ := row
    unfold Table.insert
    split
    · by_cases h : j = k
      · simp [Table.get?_cons, h]
      · simp [Table.get?_cons, h, Ne.symm h]
    · split
      · rename_i e; subst e
        by_cases h : j = k
        · simp [Table.get?_cons, h]
        · simp [Table.get?_cons, h, Ne.symm h]
      · rename_i ne
        rw [Table.get?_cons, ih, Table.get?_cons]
        by_cases h : j = k
        · subst h; simp [Ne.symm ne]
        · simp [h]

/-- Reading after an erasure. -/
@[simp] theorem Table.get?_erase (t : Table α) (k j : Nat) :
    Table.get? (Table.erase t k) j = if j = k then none else Table.get? t j := by
  induction t with
  | nil => simp [Table.erase]
  | cons row rest ih =>
    obtain ⟨i, b⟩ := row
    by_cases h : i = k
    · subst h
      have : Table.erase ((i, b) :: rest) i = Table.erase rest i := by simp [Table.erase]
      rw [this, ih, Table.get?_cons]
      by_cases hj : j = i
      · simp [hj]
      · simp [hj, Ne.symm hj]
    · have : Table.erase ((i, b) :: rest) k = (i, b) :: Table.erase rest k := by simp [Table.erase, h]
      rw [this, Table.get?_cons, ih, Table.get?_cons]
      by_cases hj : i = j
      · subst hj; simp [h]
      · simp [hj]

theorem Table.insert_mem {t : Table α} {k : Nat} {a : α} {row : Nat × α} (h : row ∈ Table.insert t k a) :
    row = (k, a) ∨ row ∈ t := by
  induction t with
  | nil => simpa [Table.insert] using h
  | cons r rest ih =>
    obtain ⟨i, b⟩ := r
    unfold Table.insert at h
    split at h
    · simpa using h
    · split at h
      · rcases List.mem_cons.1 h with e | m
        · exact .inl e
        · exact .inr (by simp [m])
      · rcases List.mem_cons.1 h with e | m
        · exact .inr (by simp [e])
        · rcases ih m with e | m
          · exact .inl e
          · exact .inr (by simp [m])

/-- A write keeps the indices rising. -/
theorem Table.rising_insert {t : Table α} (r : Table.Rising t) (k : Nat) (a : α) : Table.Rising (Table.insert t k a) := by
  induction t with
  | nil => simp [Table.insert]
  | cons row rest ih =>
    obtain ⟨i, b⟩ := row
    have hr := List.pairwise_cons.1 r
    unfold Table.insert
    split
    · rename_i lt
      refine List.pairwise_cons.2 ⟨?_, r⟩
      intro row m
      rcases List.mem_cons.1 m with e | m
      · simpa [e] using lt
      · exact Nat.lt_trans lt (hr.1 row m)
    · split
      · rename_i e; subst e
        exact List.pairwise_cons.2 ⟨hr.1, hr.2⟩
      · rename_i nlt ne
        refine List.pairwise_cons.2 ⟨?_, ih hr.2⟩
        intro row m
        rcases Table.insert_mem m with e | m
        · subst e; show i < k; omega
        · exact hr.1 row m

/-- An erasure keeps the indices rising. -/
theorem Table.rising_erase {t : Table α} (r : Table.Rising t) (k : Nat) : Table.Rising (Table.erase t k) :=
  r.filter _

/-- Reading after a write that may not be listed. -/
@[simp] theorem Table.getD_put [DecidableEq α] (t : Table α) (k j : Nat) (d a : α) :
    Table.getD (Table.put t k d a) j d = if j = k then a else Table.getD t j d := by
  unfold Table.put Table.getD
  split
  · rename_i e; subst e
    by_cases h : j = k <;> simp [h]
  · by_cases h : j = k <;> simp [h]

/-- The lowest free index is not listed. -/
theorem Table.get?_firstFree {t : Table α} (r : Table.Rising t) {n : Nat} (low : ∀ row ∈ t, n ≤ row.1) :
    Table.get? t (Table.firstFree t n) = none := by
  induction t generalizing n with
  | nil => rfl
  | cons row rest ih =>
    obtain ⟨i, a⟩ := row
    have hr := List.pairwise_cons.1 r
    unfold Table.firstFree
    split
    · rename_i e
      have up : ∀ row ∈ rest, n + 1 ≤ row.1 := fun row m => by have := hr.1 row m; simp at this; omega
      have ge : ∀ (t : Table α) (m : Nat), m ≤ Table.firstFree t m := by
        intro t
        induction t with
        | nil => intro m; exact Nat.le_refl _
        | cons row rest ih =>
          intro m
          unfold Table.firstFree
          split
          · exact Nat.le_of_succ_le (ih _)
          · exact Nat.le_refl _
      have g := ge rest (n + 1)
      rw [Table.get?_cons, if_neg (by omega)]
      exact ih hr.2 up
    · rename_i e
      have := low (i, a) (by simp)
      refine Table.get?_none_of_lt fun row m => ?_
      rcases List.mem_cons.1 m with e' | m
      · subst e'; simp at this ⊢; omega
      · have h1 := hr.1 row m
        simp at this h1; omega

/-- The indices listed, as membership. -/
theorem Table.mem_keys {t : Table α} {k : Nat} : k ∈ Table.keys t ↔ ∃ a, (k, a) ∈ t := by
  simp [Table.keys]

end Sys2Proof.Machine
end

