-- ==== Sys2Proof/Laws/Report.lean ====
section
/-! SUPPORT. The event unit, the control queue and the end list: what one occurrence and one end record do to the
reports, and that both keep them consistent and bounded. -/

namespace Sys2Proof.Machine

theorem EventKind.code_injective {j k : EventKind} (h : j.code = k.code) : j = k := by
  cases j <;> cases k <;> first | rfl | exact absurd h (by decide)

/-- Reading one kind's record after a record has been written. -/
@[simp] theorem Report.event_putEvent (r : Report) (j k : EventKind) (e : EventRecord) :
    (r.putEvent j e).event k = if k = j then e else r.event k := by
  unfold Report.putEvent Report.event
  rw [Table.getD_put]
  by_cases h : k = j
  · simp [h]
  · have ne : k.code ≠ j.code := fun c => h (EventKind.code_injective c)
    simp [h, ne]

@[simp] theorem Report.putEvent_control (r : Report) (k : EventKind) (e : EventRecord) :
    (r.putEvent k e).control = r.control := rfl
@[simp] theorem Report.putEvent_busy (r : Report) (k : EventKind) (e : EventRecord) :
    (r.putEvent k e).busy = r.busy := rfl
@[simp] theorem Report.putEvent_reading (r : Report) (k : EventKind) (e : EventRecord) :
    (r.putEvent k e).reading = r.reading := rfl
@[simp] theorem Report.putEvent_endList (r : Report) (k : EventKind) (e : EventRecord) :
    (r.putEvent k e).endList = r.endList := rfl
@[simp] theorem Report.putEvent_noticeHeld (r : Report) (k : EventKind) (e : EventRecord) :
    (r.putEvent k e).noticeHeld = r.noticeHeld := rfl

/-- The events depend on the table of event records only. -/
theorem Report.event_congr {q r : Report} (h : q.events = r.events) (k : EventKind) : q.event k = r.event k := by
  simp [Report.event, h]

theorem Report.freePlaces_pos {r : Report} :
    0 < r.freePlaces ↔ r.control.length + (if r.busy.isSome then 1 else 0) < controlPlaces := by
  unfold Report.freePlaces
  split <;> omega

/-! ### A NOTICE wanted -/

@[simp] theorem Report.wantNotice_events (r : Report) : r.wantNotice.events = r.events := by
  unfold Report.wantNotice Report.fill; split <;> [rfl; (split <;> rfl)]
@[simp] theorem Report.wantNotice_event (r : Report) (k : EventKind) : r.wantNotice.event k = r.event k :=
  Report.event_congr r.wantNotice_events k
@[simp] theorem Report.wantNotice_busy (r : Report) : r.wantNotice.busy = r.busy := by
  unfold Report.wantNotice Report.fill; split <;> [rfl; (split <;> rfl)]
@[simp] theorem Report.wantNotice_reading (r : Report) : r.wantNotice.reading = r.reading := by
  unfold Report.wantNotice Report.fill; split <;> [rfl; (split <;> rfl)]
@[simp] theorem Report.wantNotice_endList (r : Report) : r.wantNotice.endList = r.endList := by
  unfold Report.wantNotice Report.fill; split <;> [rfl; (split <;> rfl)]

/-- R180: a NOTICE wanted fills a free place, or is held; one held takes it in. -/
theorem Report.wantNotice_control (r : Report) :
    (r.wantNotice.control = r.control ∧ r.wantNotice.noticeHeld = true) ∨
      (r.wantNotice.control = r.control ++ [.notice r.noticeEntries] ∧ r.wantNotice.noticeHeld = r.noticeHeld ∧
        0 < r.freePlaces) := by
  unfold Report.wantNotice Report.fill
  split
  · rename_i h; exact .inl ⟨rfl, h⟩
  · split
    · rename_i h; exact .inr ⟨rfl, rfl, h⟩
    · exact .inl ⟨rfl, rfl⟩

theorem Report.wantNotice_bounded {r : Report} (h : r.Bounded) : r.wantNotice.Bounded := by
  refine ⟨?_, by simpa using h.2⟩
  rw [Report.wantNotice_busy]
  rcases r.wantNotice_control with ⟨e, -⟩ | ⟨e, -, free⟩
  · rw [e]; exact h.1
  · rw [e, List.length_append]
    have := Report.freePlaces_pos.1 free
    simp only [List.length_singleton]
    omega

/-! ### One occurrence (R178) -/

/-- R178: the records after an occurrence: the kind's own as `occur` says, the others as before. -/
@[simp] theorem Report.raiseKind_event (r : Report) (j k : EventKind) (c : Option Capture) :
    (r.raiseKind j c).event k = if k = j then (r.event j).occur c else r.event k := by
  unfold Report.raiseKind
  split <;> simp

@[simp] theorem Report.raise_event (r : Report) (c : Capture) (k : EventKind) :
    (r.raise c).event k = if k = c.kind then (r.event c.kind).occur (some c) else r.event k :=
  r.raiseKind_event _ _ _

@[simp] theorem Report.raiseKind_busy (r : Report) (k : EventKind) (c : Option Capture) :
    (r.raiseKind k c).busy = r.busy := by
  unfold Report.raiseKind; split <;> simp
@[simp] theorem Report.raiseKind_reading (r : Report) (k : EventKind) (c : Option Capture) :
    (r.raiseKind k c).reading = r.reading := by
  unfold Report.raiseKind; split <;> simp
@[simp] theorem Report.raiseKind_endList (r : Report) (k : EventKind) (c : Option Capture) :
    (r.raiseKind k c).endList = r.endList := by
  unfold Report.raiseKind; split <;> simp
@[simp] theorem Report.raise_busy (r : Report) (c : Capture) : (r.raise c).busy = r.busy := r.raiseKind_busy _ _
@[simp] theorem Report.raise_reading (r : Report) (c : Capture) : (r.raise c).reading = r.reading :=
  r.raiseKind_reading _ _
@[simp] theorem Report.raise_endList (r : Report) (c : Capture) : (r.raise c).endList = r.endList :=
  r.raiseKind_endList _ _

/-- R178, R179: an occurrence that does not newly enter the masked-pending set queues nothing. -/
theorem Report.raise_quiet (r : Report) (c : Capture) (h : (r.event c.kind).entersOnOccur = false) :
    r.raise c = r.putEvent c.kind ((r.event c.kind).occur (some c)) := by
  simp [Report.raise, Report.raiseKind, h]

theorem Report.raiseKind_bounded {r : Report} (h : r.Bounded) (k : EventKind) (c : Option Capture) :
    (r.raiseKind k c).Bounded := by
  unfold Report.raiseKind
  split
  · exact Report.wantNotice_bounded h
  · exact h

/-- R177: an occurrence keeps a record consistent. -/
theorem EventRecord.occur_consistent (e : EventRecord) (c : Option Capture) :
    (e.occur c).Consistent := by
  refine ⟨rfl, ?_, ?_⟩
  · simp [EventRecord.occur, EventRecord.marked, saturate16]
  · simp [EventRecord.occur, EventRecord.marked]

theorem EventRecord.setMask_consistent {e : EventRecord} (h : e.Consistent) (m : Bool) : (e.setMask m).Consistent :=
  ⟨rfl, h.2.1, h.2.2⟩

theorem EventRecord.clear_consistent (e : EventRecord) : e.clear.Consistent :=
  ⟨rfl, Nat.zero_le _, fun _ => rfl⟩

theorem Report.putEvent_consistent {r : Report} (h : r.EventsConsistent) {k : EventKind} {e : EventRecord}
    (he : e.Consistent) : (r.putEvent k e).EventsConsistent := by
  intro j
  rw [Report.event_putEvent]
  split
  · exact he
  · exact h j

theorem Report.consistent_congr {q r : Report} (e : q.events = r.events) (h : r.EventsConsistent) :
    q.EventsConsistent := fun k => by rw [Report.event_congr e]; exact h k

theorem Report.raiseKind_consistent {r : Report} (h : r.EventsConsistent) (k : EventKind) (c : Option Capture) :
    (r.raiseKind k c).EventsConsistent := by
  intro j
  rw [Report.raiseKind_event]
  split
  · exact EventRecord.occur_consistent _ c
  · exact h j

/-! ### One end record (R158) -/

@[simp] theorem Report.flushOne_events (r : Report) : r.flushOne.events = r.events := rfl
@[simp] theorem Report.flushOne_busy (r : Report) : r.flushOne.busy = r.busy := rfl
@[simp] theorem Report.flushOne_reading (r : Report) : r.flushOne.reading = r.reading := rfl

theorem Report.flushOne_bounded {r : Report} (h : r.Bounded) (free : 0 < r.endPlaces) : r.flushOne.Bounded := by
  have pos : 0 < r.freePlaces := by unfold Report.endPlaces at free; omega
  have := Report.freePlaces_pos.1 pos
  refine ⟨?_, ?_⟩
  · rw [Report.flushOne_busy]
    simp only [Report.flushOne, List.length_append, List.length_singleton]
    omega
  · have := h.2
    simp [Report.flushOne]; omega

theorem Report.flushAll_bounded {r : Report} (n : Nat) (h : r.Bounded) : (Report.flushAll n r).Bounded := by
  induction n generalizing r with
  | zero => exact h
  | succ n ih =>
    unfold Report.flushAll
    split
    · exact h
    · rename_i c
      simp at c
      exact ih (Report.flushOne_bounded h (Nat.pos_of_ne_zero c.2))

@[simp] theorem Report.flushAll_events (n : Nat) (r : Report) : (Report.flushAll n r).events = r.events := by
  induction n generalizing r with
  | zero => rfl
  | succ n ih => unfold Report.flushAll; split <;> simp [ih]

@[simp] theorem Report.flushAll_busy (n : Nat) (r : Report) : (Report.flushAll n r).busy = r.busy := by
  induction n generalizing r with
  | zero => rfl
  | succ n ih => unfold Report.flushAll; split <;> simp [ih]

@[simp] theorem Report.flushAll_reading (n : Nat) (r : Report) : (Report.flushAll n r).reading = r.reading := by
  induction n generalizing r with
  | zero => rfl
  | succ n ih => unfold Report.flushAll; split <;> simp [ih]

@[simp] theorem Report.appendEnd_reading (r : Report) (e : EndRecord) : (r.appendEnd e).reading = r.reading := by
  unfold Report.appendEnd
  split
  · simp
  · dsimp only
    split <;> rfl

@[simp] theorem Report.appendEnd_busy (r : Report) (e : EndRecord) : (r.appendEnd e).busy = r.busy := by
  unfold Report.appendEnd
  split
  · simp
  · dsimp only
    split <;> rfl

theorem Report.appendEnd_bounded {r : Report} (h : r.Bounded) (e : EndRecord) : (r.appendEnd e).Bounded := by
  unfold Report.appendEnd
  split
  · exact Report.raiseKind_bounded h _ _
  · rename_i room
    have grown : ({ r with endList := r.endList ++ [e] } : Report).Bounded := by
      refine ⟨h.1, ?_⟩
      simp; omega
    dsimp only
    split
    · rename_i full
      exact Report.flushOne_bounded grown full.2
    · exact grown

theorem Report.appendEnd_consistent {r : Report} (h : r.EventsConsistent) (e : EndRecord) :
    (r.appendEnd e).EventsConsistent := by
  unfold Report.appendEnd
  split
  · exact Report.raiseKind_consistent h _ _
  · dsimp only
    split <;> exact h

/-- R158: with room in the list and no flush due, the record joins the tail and nothing else changes. -/
theorem Report.appendEnd_room (r : Report) (e : EndRecord) (h : r.endList.length + 1 < endFrameRecords) :
    r.appendEnd e = { r with endList := r.endList ++ [e] } := by
  have : endFrameRecords < endListLimit := by decide
  unfold Report.appendEnd
  rw [if_neg (by omega)]
  dsimp only
  rw [if_neg]
  simp only [List.length_append, List.length_cons, List.length_nil]
  omega

/-! ### Reports grown by occurrences and end records -/

/-- The reports `q` come from `r` by occurrences and end records. -/
inductive Report.Grows (r : Report) : Report → Prop where
  | refl : Report.Grows r r
  | raise {q : Report} (h : Report.Grows r q) (c : Capture) : Report.Grows r (q.raise c)
  | append {q : Report} (h : Report.Grows r q) (e : EndRecord) : Report.Grows r (q.appendEnd e)
  | flush {q : Report} (h : Report.Grows r q) (n : Nat) : Report.Grows r (Report.flushAll n q)

theorem Report.Grows.trans {p q r : Report} (h : Report.Grows p q) (k : Report.Grows q r) : Report.Grows p r := by
  induction k with
  | refl => exact h
  | raise _ c ih => exact ih.raise c
  | append _ e ih => exact ih.append e
  | flush _ n ih => exact ih.flush n

theorem Report.Grows.busy {q r : Report} (h : Report.Grows r q) : q.busy = r.busy := by
  induction h with
  | refl => rfl
  | raise _ c ih => rw [Report.raise_busy, ih]
  | append _ e ih => rw [Report.appendEnd_busy, ih]
  | flush _ n ih => rw [Report.flushAll_busy, ih]

theorem Report.Grows.reading {q r : Report} (h : Report.Grows r q) : q.reading = r.reading := by
  induction h with
  | refl => rfl
  | raise _ c ih => rw [Report.raise_reading, ih]
  | append _ e ih => rw [Report.appendEnd_reading, ih]
  | flush _ n ih => rw [Report.flushAll_reading, ih]

theorem Report.Grows.bounded {q r : Report} (h : Report.Grows r q) (b : r.Bounded) : q.Bounded := by
  induction h with
  | refl => exact b
  | raise _ c ih => exact Report.raiseKind_bounded ih _ _
  | append _ e ih => exact Report.appendEnd_bounded ih e
  | flush _ n ih => exact Report.flushAll_bounded n ih

theorem Report.Grows.consistent {q r : Report} (h : Report.Grows r q) (b : r.EventsConsistent) :
    q.EventsConsistent := by
  induction h with
  | refl => exact b
  | raise _ c ih => exact Report.raiseKind_consistent ih _ _
  | append _ e ih => exact Report.appendEnd_consistent ih e
  | flush _ n ih => exact Report.consistent_congr (Report.flushAll_events n _) ih

end Sys2Proof.Machine
end

