-- ==== Sys2Proof/Laws/Goes.lean ====
section
/-! SUPPORT. Once for each operation of the scheduler, the sample map, the lanes and the voice controller: which parts
of the state it may change, that it reports by occurrences and end records only, and that it keeps the invariants.
`State.Goes` composes, so that what a command does follows from the operations it calls. -/

namespace Sys2Proof.Machine

/-- `t` keeps each of the four invariants that `s` meets, whatever the others. -/
structure State.Keeps (s t : State) : Prop where
  memory  : s.MemoryFormed → t.MemoryFormed
  port    : s.port.Bounded → t.port.Bounded
  cursors : s.CursorsBelow → t.CursorsBelow
  tags    : s.TagsDistinct → t.TagsDistinct

theorem State.Keeps.refl (s : State) : s.Keeps s := ⟨id, id, id, id⟩

theorem State.Keeps.trans {s t u : State} (h : s.Keeps t) (k : t.Keeps u) : s.Keeps u :=
  ⟨fun a => k.memory (h.memory a), fun a => k.port (h.port a), fun a => k.cursors (h.cursors a),
    fun a => k.tags (h.tags a)⟩

/-- From `s` to `t` only the listed parts change, the reports grow, and the invariants are kept. -/
structure State.Goes (s t : State) (ps : List Part) : Prop where
  only   : s.ChangesOnly t ps
  report : Report.Grows s.report t.report
  keeps  : s.Keeps t

theorem State.Goes.refl (s : State) (ps : List Part) : s.Goes s ps :=
  ⟨.refl s ps, .refl, .refl s⟩

theorem State.Goes.then {s t u : State} {ps qs : List Part} (h : s.Goes t ps) (k : t.Goes u qs)
    (m : ∀ p ∈ qs, p ∈ ps) : s.Goes u ps :=
  ⟨h.only.trans (k.only.wider m), h.report.trans k.report, h.keeps.trans k.keeps⟩

theorem State.Goes.wider {s t : State} {ps qs : List Part} (h : s.Goes t ps)
    (m : ∀ p ∈ ps, p ∈ qs) : s.Goes t qs :=
  ⟨h.only.wider m, h.report, h.keeps⟩

theorem State.foldl_goes {α : Type} {ps : List Part} (f : State → α → State)
    (h : ∀ (s : State) (a : α), s.Goes (f s a) ps) (l : List α) (s : State) : s.Goes (l.foldl f s) ps := by
  induction l generalizing s with
  | nil => exact .refl _ _
  | cons a rest ih => exact (h s a).then (ih _) fun _ q => q

/-! ### The updates -/

theorem State.setNextOrder_goes (s : State) (x : StartOrder) : s.Goes (s.setNextOrder x) [.nextOrder] :=
  ⟨s.setNextOrder_changes x, .refl, ⟨id, id, id, id⟩⟩
theorem State.setSlots_goes (s : State) (x : Table Slot) : s.Goes (s.setSlots x) [.slots] :=
  ⟨s.setSlots_changes x, .refl, ⟨id, id, id, id⟩⟩
theorem State.setLanes_goes (s : State) (x : PerLane Lane) : s.Goes (s.setLanes x) [.lanes] :=
  ⟨s.setLanes_changes x, .refl, ⟨id, id, id, id⟩⟩
theorem State.setCadence_goes (s : State) (x : Cadence) : s.Goes (s.setCadence x) [.cadence] :=
  ⟨s.setCadence_changes x, .refl, ⟨id, id, id, id⟩⟩
theorem State.setPass_goes (s : State) (x : Option Pass) : s.Goes (s.setPass x) [.pass] :=
  ⟨s.setPass_changes x, .refl, ⟨id, id, id, id⟩⟩
theorem State.setConfig_goes (s : State) (x : Configuration) : s.Goes (s.setConfig x) [.config] :=
  ⟨s.setConfig_changes x, .refl, ⟨id, id, id, id⟩⟩
theorem State.setFreeCount_goes (s : State) (x : Nat) : s.Goes (s.setFreeCount x) [.freeCount] :=
  ⟨s.setFreeCount_changes x, .refl, ⟨id, id, id, id⟩⟩
theorem State.setLane_goes (s : State) (l : LaneId) (x : Lane) : s.Goes (s.setLane l x) [.lanes] :=
  s.setLanes_goes _
theorem State.putSlot_goes (s : State) (v j : Nat) (x : Slot) : s.Goes (s.putSlot v j x) [.slots] :=
  s.setSlots_goes _
theorem State.clearSlot_goes (s : State) (v j : Nat) : s.Goes (s.clearSlot v j) [.slots] :=
  s.setSlots_goes _

/-- R178, R158: an occurrence, an end record. -/
theorem State.raise_goes (s : State) (c : Capture) : s.Goes (s.raise c) [.report] :=
  ⟨s.setReport_changes _, .raise .refl c, ⟨id, id, id, id⟩⟩
theorem State.appendEnd_goes (s : State) (e : EndRecord) : s.Goes (s.appendEnd e) [.report] :=
  ⟨s.setReport_changes _, .append .refl e, ⟨id, id, id, id⟩⟩

theorem State.setPort_goes (s : State) (x : Port) (h : s.port.Bounded → x.Bounded) : s.Goes (s.setPort x) [.port] :=
  ⟨s.setPort_changes x, .refl, ⟨id, h, id, id⟩⟩

theorem State.setSamples_goes (s : State) (t : Table SampleEntry) : s.Goes (s.setSamples t) [.library] :=
  ⟨s.setLibrary_changes _, .refl, ⟨id, id, id, id⟩⟩
theorem State.putEntry_goes (s : State) (h : Nat) (e : SampleEntry) : s.Goes (s.putEntry h e) [.library] :=
  s.setSamples_goes _
theorem State.clearEntry_goes (s : State) (h : Nat) : s.Goes (s.clearEntry h) [.library] :=
  s.setSamples_goes _
theorem State.applyMatrices_goes (s : State) : s.Goes s.applyMatrices [.library] :=
  ⟨s.setLibrary_changes _, .refl, ⟨id, id, id, id⟩⟩

@[simp] theorem State.putArticulation_articulation (s : State) (i j : Nat) (a : Articulation) :
    (s.putArticulation i a).articulation j = if j = i then a else s.articulation j := by
  simp [State.putArticulation, State.articulation]

theorem State.putArticulation_goes (s : State) (i : Nat) (a : Articulation)
    (h : s.CursorsBelow → a.cursor < a.roundRobinCount) : s.Goes (s.putArticulation i a) [.library] := by
  refine ⟨s.setLibrary_changes _, .refl, ⟨id, id, fun k j => ?_, id⟩⟩
  rw [State.putArticulation_articulation]
  split
  · exact h k
  · exact k j

theorem State.setHeadStore_goes (s : State) (a : Nat) (bytes : List Byte) :
    s.Goes (s.setHeadStore (Memory.write s.headStore a bytes)) [.headStore] :=
  ⟨s.setHeadStore_changes _, .refl, ⟨fun k => ⟨Memory.wf_write _ _ _ k.1, k.2⟩, id, id, id⟩⟩
theorem State.setRingStore_goes (s : State) (a : Nat) (bytes : List Byte) :
    s.Goes (s.setRingStore (Memory.write s.ringStore a bytes)) [.ringStore] :=
  ⟨s.setRingStore_changes _, .refl, ⟨fun k => ⟨k.1, Memory.wf_write _ _ _ k.2⟩, id, id, id⟩⟩

@[simp] theorem State.putVoice_voice? (s : State) (v w : Nat) (x : Voice) :
    (s.putVoice v x).voice? w = if w = v then some x else s.voice? w := by
  simp [State.putVoice, State.voice?]

@[simp] theorem State.freeVoice_voice? (s : State) (v w : Nat) :
    (s.freeVoice v).voice? w = if w = v then none else s.voice? w := by
  simp [State.freeVoice, State.voice?]

/-- R39: a record written under a tag that no other record carries keeps the tags distinct. -/
theorem State.putVoice_goes (s : State) (v : Nat) (x : Voice)
    (own : ∀ w y, s.voice? w = some y → y.tag = x.tag → w = v) : s.Goes (s.putVoice v x) [.voices] := by
  refine ⟨s.setVoices_changes _, .refl, ⟨id, id, id, fun k => ⟨Table.rising_insert k.1 v x, ?_⟩⟩⟩
  intro a b p q ha hb e
  rw [State.putVoice_voice?] at ha hb
  split at ha <;> split at hb
  · simp_all
  · rename_i h1 _
    cases ha
    exact h1.trans (own b q hb e.symm).symm
  · rename_i h1
    cases hb
    exact (own a p ha e).trans h1.symm
  · exact k.2 a b p q ha hb e

/-- R39: a record rewritten under its own tag keeps the tags distinct. -/
theorem State.putVoice_goes_same (s : State) (v : Nat) (x y : Voice) (h : s.voice? v = some y) (e : x.tag = y.tag) :
    s.Goes (s.putVoice v x) [.voices] := by
  refine ⟨s.setVoices_changes _, .refl, ⟨id, id, id, fun k => ?_⟩⟩
  exact (s.putVoice_goes v x fun w z hz ez => k.2 w v z y hz h (ez.trans e)).keeps.tags k

theorem State.freeVoice_goes (s : State) (v : Nat) : s.Goes (s.freeVoice v) [.voices] := by
  refine ⟨s.setVoices_changes _, .refl, ⟨id, id, id, fun k => ⟨Table.rising_erase k.1 v, ?_⟩⟩⟩
  intro a b p q ha hb e
  rw [State.freeVoice_voice?] at ha hb
  split at ha <;> split at hb
  · cases ha
  · cases ha
  · cases hb
  · exact k.2 a b p q ha hb e

/-! ### The fetch scheduler -/

/-- The parts the fetch scheduler changes when it asks for chunks and takes them back. -/
abbrev fetchParts : List Part := [.report, .slots, .lanes]

theorem State.enqueue_goes (s : State) (l : LaneId) (n : QueueEntry) : s.Goes (s.enqueue l n) [.lanes] :=
  s.setLane_goes _ _

theorem State.enqueueParts_goes (s : State) (l : LaneId) (v j : Nat) (d : PeriodIndex) (e : SampleEntry)
    (parts : List PartRange) : s.Goes (s.enqueueParts l v j d e parts) [.lanes] :=
  State.foldl_goes _ (fun s _ => s.enqueue_goes _ _) _ _

theorem State.unqueueSlot_goes (s : State) (v j : Nat) : s.Goes (s.unqueueSlot v j) [.lanes] :=
  s.setLanes_goes _

theorem State.loseNewChunk_goes (s : State) (v j : Nat) (x : Voice) (e : SampleEntry) (k : Nat) :
    s.Goes (s.loseNewChunk v j x e k) [.report, .slots] :=
  ((State.Goes.refl s _).then (s.putSlot_goes _ _ _) (by decide)).then (State.raise_goes _ _) (by decide)

theorem State.setUpChunk_goes (s : State) (v j : Nat) (x : Voice) (e : SampleEntry) (k : Nat) :
    s.Goes (s.setUpChunk v j x e k) fetchParts := by
  unfold State.setUpChunk
  split
  · exact (s.loseNewChunk_goes v j x e k).wider (by decide)
  · exact ((State.Goes.refl s _).then (s.putSlot_goes _ _ _) (by decide)).then
      (State.enqueueParts_goes _ _ _ _ _ _ _) (by decide)

theorem State.requestChunk_goes (s : State) (v : Nat) (x : Voice) (e : SampleEntry) (k : Nat) :
    s.Goes (s.requestChunk v x e k) fetchParts := by
  unfold State.requestChunk
  split
  · exact s.setUpChunk_goes _ _ _ _ _
  · split
    · exact (s.putSlot_goes _ _ _).wider (by decide)
    · exact .refl _ _

theorem State.prefillFrom_goes (v : Nat) (x : Voice) (e : SampleEntry) (n k : Nat) (s : State) :
    s.Goes (State.prefillFrom v x e n k s) fetchParts := by
  induction n generalizing k s with
  | zero => exact .refl _ _
  | succ n ih =>
    unfold State.prefillFrom
    split
    · exact .refl _ _
    · exact (s.requestChunk_goes v x e k).then (ih _ _) (by decide)

theorem State.prefill_goes (s : State) (v : Nat) (x : Voice) (e : SampleEntry) : s.Goes (s.prefill v x e) fetchParts :=
  State.prefillFrom_goes _ _ _ _ _ _

theorem State.shiftSlot_goes (s : State) (v : Nat) (d : PeriodIndex) (j : Nat) : s.Goes (s.shiftSlot v d j) [.slots] := by
  unfold State.shiftSlot
  split
  · exact .refl _ _
  · split
    · exact s.putSlot_goes _ _ _
    · exact .refl _ _

/-- R72: of an entry that is placed again nothing but the deadline is new. -/
theorem State.redated_eq (s : State) (n : QueueEntry) : s.redated n = { n with deadline := (s.redated n).deadline } := by
  unfold State.redated
  split <;> rfl

@[simp] theorem State.redated_voice (s : State) (n : QueueEntry) : (s.redated n).voice = n.voice := by
  rw [s.redated_eq n]

@[simp] theorem State.redated_slot (s : State) (n : QueueEntry) : (s.redated n).slot = n.slot := by
  rw [s.redated_eq n]

@[simp] theorem State.redated_part (s : State) (n : QueueEntry) : (s.redated n).part = n.part := by
  rw [s.redated_eq n]

/-- R72: what a lane is when a voice's parts have been placed again. -/
theorem State.lane_replaceParts (s : State) (v : Nat) (l : LaneId) :
    (s.replaceParts v).lane l =
      { s.lane l with queue := ((waitingEntries v (s.lane l).queue).map s.redated).foldl queueInsert
                                 ((s.lane l).queue.filter fun n => n.voice != v) } := by
  cases l <;> rfl

theorem State.replaceParts_goes (s : State) (v : Nat) : s.Goes (s.replaceParts v) [.lanes] :=
  s.setLanes_goes _

theorem State.shiftDeadlines_goes (s : State) (v : Nat) (d : PeriodIndex) :
    s.Goes (s.shiftDeadlines v d) [.slots, .lanes] :=
  ((State.Goes.refl s _).then
    (State.foldl_goes (ps := [.slots]) _ (fun s j => s.shiftSlot_goes v d j) _ _) (by decide)).then
    (State.replaceParts_goes _ v) (by decide)

theorem State.resolveDrained_goes (s : State) (v j : Nat) (k : Option Nat) :
    s.Goes (s.resolveDrained v j k) fetchParts := by
  unfold State.resolveDrained
  split
  · split
    · exact s.setUpChunk_goes _ _ _ _ _
    · exact (s.clearSlot_goes _ _).wider (by decide)
  · exact (s.clearSlot_goes _ _).wider (by decide)

theorem State.drainRead_goes (s : State) (v j p : Nat) (slot : Slot) : s.Goes (s.drainRead v j p slot) fetchParts := by
  unfold State.drainRead
  split
  · exact s.resolveDrained_goes _ _ _
  · exact (s.putSlot_goes _ _ _).wider (by decide)

theorem State.fillPart_goes (s : State) (v j p : Nat) (slot : Slot) (data : List Byte) :
    s.Goes (s.fillPart v j p slot data) [.slots, .ringStore] := by
  have counted : s.Goes (s.countLostRead v j p slot) [.slots, .ringStore] := (s.putSlot_goes _ _ _).wider (by decide)
  unfold State.fillPart
  split
  · exact counted
  · split
    · exact counted
    · split
      · exact counted
      · exact (State.Goes.refl s _).then (s.putSlot_goes _ _ _) (by decide) |>.then
          (State.setRingStore_goes _ _ _) (by decide)

theorem State.streamOk_goes (s : State) (v j p : Nat) (data : List Byte) :
    s.Goes (s.streamOk v j p data) (.ringStore :: fetchParts) := by
  unfold State.streamOk
  split
  · exact .refl _ _
  · split
    · exact (s.fillPart_goes _ _ _ _ _).wider (by decide)
    · exact (s.drainRead_goes _ _ _ _).wider (by decide)
    · exact (s.putSlot_goes _ _ _).wider (by decide)
    · exact .refl _ _
    · exact .refl _ _

theorem State.loseSlot_goes (s : State) (v j : Nat) (l : LaneId) (slot : Slot) (marks : List PartMark) (n : Nat) :
    s.Goes (s.loseSlot v j l slot marks n) fetchParts := by
  have base : s.Goes ((s.putSlot v j
      { slot with state := .lost, marks := failWaiting marks, outstanding := n }).unqueueSlot v j) fetchParts :=
    ((State.Goes.refl s _).then (s.putSlot_goes _ _ _) (by decide)).then (State.unqueueSlot_goes _ _ _) (by decide)
  unfold State.loseSlot
  dsimp only
  split
  · exact base
  · exact base.then (State.raise_goes _ _) (by decide)

theorem State.retryPart_goes (s : State) (v j p : Nat) (l : LaneId) (slot : Slot) (a n : Nat) :
    s.Goes (s.retryPart v j p l slot a n) [.slots, .lanes] :=
  ((State.Goes.refl s _).then (s.putSlot_goes _ _ _) (by decide)).then (State.enqueue_goes _ _ _) (by decide)

theorem State.failPart_goes (s : State) (v j p : Nat) (l : LaneId) (retry : Bool) (a n : Nat) :
    s.Goes (s.failPart v j p l retry a n) fetchParts := by
  unfold State.failPart
  split
  · exact .refl _ _
  · split
    · split
      · exact (s.retryPart_goes _ _ _ _ _ _ _).wider (by decide)
      · exact s.loseSlot_goes _ _ _ _ _ _
    · exact s.drainRead_goes _ _ _ _
    · exact (s.putSlot_goes _ _ _).wider (by decide)
    · exact .refl _ _
    · exact .refl _ _

theorem State.loseQueued_goes (s : State) (l : LaneId) (n : QueueEntry) : s.Goes (s.loseQueued l n) fetchParts := by
  unfold State.loseQueued
  split
  · exact .refl _ _
  · split
    · exact .refl _ _
    · exact s.loseSlot_goes _ _ _ _ _ _

theorem State.passChunk_goes (s : State) (v : Nat) (x : Voice) (k : Nat) :
    s.Goes (s.passChunk v x k) [.slots, .lanes] := by
  have cleared : ∀ j, s.Goes ((s.clearSlot v j).unqueueSlot v j) [.slots, .lanes] := fun j =>
    ((State.Goes.refl s _).then (s.clearSlot_goes v j) (by decide)).then (State.unqueueSlot_goes _ _ _) (by decide)
  unfold State.passChunk
  dsimp only
  split
  · exact .refl _ _
  · split
    · exact (s.clearSlot_goes _ _).wider (by decide)
    · split
      · exact (s.clearSlot_goes _ _).wider (by decide)
      · exact (s.putSlot_goes _ _ _).wider (by decide)
    · exact cleared _
    · split
      · exact cleared _
      · exact ((State.Goes.refl s _).then (s.putSlot_goes _ _ _) (by decide)).then
          (State.unqueueSlot_goes _ _ _) (by decide)
    · split
      · exact (s.putSlot_goes _ _ _).wider (by decide)
      · exact .refl _ _

theorem State.cancelSlot_goes (s : State) (v j : Nat) : s.Goes (s.cancelSlot v j) [.slots, .lanes] := by
  unfold State.cancelSlot
  split
  · exact .refl _ _
  · split
    · exact ((State.Goes.refl s _).then (s.clearSlot_goes _ _) (by decide)).then
        (State.unqueueSlot_goes _ _ _) (by decide)
    · exact ((State.Goes.refl s _).then (s.putSlot_goes _ _ _) (by decide)).then
        (State.unqueueSlot_goes _ _ _) (by decide)

theorem State.cancelRing_goes (s : State) (v : Nat) : s.Goes (s.cancelRing v) [.slots, .lanes] :=
  State.foldl_goes _ (fun s j => s.cancelSlot_goes v j) _ _

theorem State.refillVoice_goes (s : State) (v : Nat) : s.Goes (s.refillVoice v) fetchParts := by
  unfold State.refillVoice
  split
  · exact .refl _ _
  · split
    · exact .refl _ _
    · dsimp only
      split
      · refine State.foldl_goes _ (fun s k => ?_) _ _
        split
        · exact .refl _ _
        · exact s.requestChunk_goes _ _ _ _
      · exact .refl _ _

/-! ### The sample map -/

/-- The parts that priming changes. -/
abbrev primingParts : List Part := [.report, .library, .lanes]

theorem State.joinPriming_goes (s : State) (l : LaneId) (h : Nat) : s.Goes (s.joinPriming l h) [.lanes] :=
  s.setLane_goes _ _
theorem State.leavePriming_goes (s : State) (l : LaneId) (h : Nat) : s.Goes (s.leavePriming l h) [.lanes] :=
  s.setLane_goes _ _
theorem State.discardReads_goes (s : State) (l : LaneId) (h : Nat) : s.Goes (s.discardReads l h) [.lanes] :=
  s.setLane_goes _ _
theorem State.countPrimingRead_goes (s : State) (l : LaneId) : s.Goes (s.countPrimingRead l) [.lanes] :=
  s.setLane_goes _ _
theorem State.markSegment_goes (s : State) (l : LaneId) (j : Nat) (g : Segment) : s.Goes (s.markSegment l j g) [.lanes] :=
  s.setLane_goes _ _

theorem State.finishPriming_goes (s : State) (l : LaneId) (h : Nat) (e : SampleEntry) :
    s.Goes (s.finishPriming l h e) primingParts := by
  have all : ∀ (e' : SampleEntry) (c : Capture),
      s.Goes (((s.putEntry h e').leavePriming l h).raise c) primingParts := fun e' c =>
    (((State.Goes.refl s _).then (s.putEntry_goes h e') (by decide)).then
      (State.leavePriming_goes _ _ _) (by decide)).then (State.raise_goes _ _) (by decide)
  unfold State.finishPriming
  split <;> exact all _ _

theorem State.primingOk_goes (s : State) (l : LaneId) (h j : Nat) (data : List Byte) :
    s.Goes (s.primingOk l h j data) (.headStore :: primingParts) := by
  unfold State.primingOk
  dsimp only
  split
  · split
    · exact (((((State.Goes.refl s (.headStore :: primingParts)).then (s.countPrimingRead_goes l) (by decide)).then
        (State.markSegment_goes _ l j _) (by decide)).then (State.setHeadStore_goes _ _ _) (by decide)).then
          (State.putEntry_goes _ h _) (by decide)).then
        (State.finishPriming_goes _ l h _) (by decide)
    · exact ((((State.Goes.refl s (.headStore :: primingParts)).then (s.countPrimingRead_goes l) (by decide)).then
        (State.markSegment_goes _ l j _) (by decide)).then (State.setHeadStore_goes _ _ _) (by decide)).then
          (State.putEntry_goes _ h _) (by decide)
  · exact (s.countPrimingRead_goes l).wider (by decide)

theorem State.failPriming_goes (s : State) (l : LaneId) (h : Nat) (e : SampleEntry) :
    s.Goes (s.failPriming l h e) primingParts :=
  ((((State.Goes.refl s _).then (s.putEntry_goes h _) (by decide)).then
    (State.discardReads_goes _ l h) (by decide)).then
    (State.leavePriming_goes _ l h) (by decide)).then (State.raise_goes _ _) (by decide)

theorem State.primingFailed_goes (s : State) (l : LaneId) (h j a : Nat) (c : ReadCause) :
    s.Goes (s.primingFailed l h j a c) primingParts := by
  unfold State.primingFailed
  dsimp only
  split
  · have counted := ((State.Goes.refl s primingParts).then (s.raise_goes (.readError l a c)) (by decide)).then
      (State.countPrimingRead_goes _ l) (by decide)
    split
    · exact counted.then (State.markSegment_goes _ l j _) (by decide)
    · exact counted.then (State.failPriming_goes _ l h _) (by decide)
  · exact (s.countPrimingRead_goes l).wider (by decide)

theorem State.suspendSegment_goes (s : State) (l : LaneId) (h j : Nat) : s.Goes (s.suspendSegment l h j) [.lanes] := by
  unfold State.suspendSegment
  split
  · exact s.markSegment_goes _ _ _
  · exact .refl _ _

theorem State.countVoice_goes (s : State) (h : Nat) : s.Goes (s.countVoice h) [.library] := by
  unfold State.countVoice
  split
  · exact s.putEntry_goes _ _
  · exact .refl _ _

theorem State.uncountVoice_goes (s : State) (h : Nat) : s.Goes (s.uncountVoice h) [.library] := by
  unfold State.uncountVoice
  split
  · split
    · exact s.clearEntry_goes _
    · exact s.putEntry_goes _ _
  · exact .refl _ _

/-! ### The lanes -/

theorem State.dispatchStream_goes (s : State) (l : LaneId) (n : Nat) (q : QueueEntry) (rest : List QueueEntry) :
    s.Goes (s.dispatchStream l n q rest) [.slots, .lanes] := by
  unfold State.dispatchStream
  dsimp only
  split
  · exact ((State.Goes.refl s _).then (s.setLane_goes l _) (by decide)).then (State.putSlot_goes _ _ _ _) (by decide)
  · exact (s.setLane_goes l _).wider (by decide)

theorem State.dispatchPriming?_goes {s t : State} {l : LaneId} {n : Nat} (h : s.dispatchPriming? l n = some t) :
    s.Goes t [.lanes] := by
  unfold State.dispatchPriming? at h
  dsimp only at h
  split at h
  · cases h
  · split at h
    · split at h
      · cases h; exact s.setLane_goes _ _
      · cases h
    · cases h

/-- R89: a dispatch concerns the slots and the lanes only. -/
theorem State.dispatchOne?_goes {s t : State} {l : LaneId} (h : s.dispatchOne? l = some t) :
    s.Goes t [.slots, .lanes] := by
  unfold State.dispatchOne? at h
  dsimp only at h
  split at h
  · cases h
  · split at h
    · cases h
    · split at h
      · cases h; exact s.dispatchStream_goes _ _ _ _
      · exact (State.dispatchPriming?_goes h).wider (by decide)

theorem State.dispatchLane_goes (l : LaneId) (n : Nat) (s : State) :
    s.Goes (State.dispatchLane l n s) [.slots, .lanes] := by
  induction n generalizing s with
  | zero => exact .refl _ _
  | succ n ih =>
    unfold State.dispatchLane
    split
    · exact .refl _ _
    · rename_i h; exact (State.dispatchOne?_goes h).then (ih _) (by decide)

theorem State.dispatch_goes (s : State) : s.Goes s.dispatch [.slots, .lanes] :=
  ((((State.Goes.refl s _).then (State.dispatchLane_goes .lane0 _ _) (by decide)).then
    (State.dispatchLane_goes .lane1 _ _) (by decide)).then
    (State.dispatchLane_goes .lane2 _ _) (by decide)).then (State.dispatchLane_goes .lane3 _ _) (by decide)

theorem State.countFailure_goes (s : State) (l : LaneId) : s.Goes (s.countFailure l) [.report, .lanes] := by
  unfold State.countFailure
  dsimp only
  split
  · exact .refl _ _
  · split
    · exact ((State.Goes.refl s _).then (s.setLane_goes _ _) (by decide)).then (State.raise_goes _ _) (by decide)
    · exact (s.setLane_goes _ _).wider (by decide)

theorem State.releaseNumber_goes (s : State) (l : LaneId) (n : Nat) (hold : Option Nat) :
    s.Goes (s.releaseNumber l n hold) [.lanes] :=
  s.setLane_goes _ _

/-- The parts that the resolution of a read may change. -/
abbrev readParts : List Part := [.report, .library, .slots, .lanes, .headStore, .ringStore]

theorem State.resolveOk_goes (s : State) (l : LaneId) (o : ReadOwner) (data : List Byte) :
    s.Goes (s.resolveOk l o data) readParts := by
  unfold State.resolveOk
  split
  · exact (s.streamOk_goes _ _ _ _).wider (by decide)
  · split
    · exact (s.countPrimingRead_goes _).wider (by decide)
    · exact (s.primingOk_goes _ _ _ _).wider (by decide)

theorem State.useMissing_goes (s : State) (units : Nat) (data : List Byte) :
    s.Goes (s.useMissing units data) [.freeCount] := by
  unfold State.useMissing
  split
  · exact s.setFreeCount_goes _
  · exact .refl _ _

/-- R87: the data of an answer of the right length are taken as they are. -/
theorem fitData_exact (n units : Nat) (data : List Byte) (h : data.length = units * 4096) :
    fitData n units data = data := by
  simp [fitData, unitBytes, ← h]

/-- R87: whatever it carries, an answer gives the read its units' bytes. -/
theorem fitData_length (n units : Nat) (data : List Byte) : (fitData n units data).length = units * 4096 := by
  simp only [fitData, unitBytes, List.length_append, List.length_take, List.length_map, List.length_range]
  omega

theorem State.streamReadError_goes (s : State) (v j : Nat) (l : LaneId) (a : Nat) (c : ReadCause) :
    s.Goes (s.streamReadError v j l a c) [.report] := by
  unfold State.streamReadError
  split
  · exact s.raise_goes _
  · exact .refl _ _

theorem State.resolveFailed_goes (s : State) (l : LaneId) (o : ReadOwner) (a n : Nat) (c : ReadCause) :
    s.Goes (s.resolveFailed l o a n c) [.report, .library, .slots, .lanes] := by
  have counted := (State.Goes.refl s [.report, .library, .slots, .lanes]).then (s.countFailure_goes l) (by decide)
  unfold State.resolveFailed
  dsimp only
  split
  · exact (counted.then (State.streamReadError_goes _ _ _ l a c) (by decide)).then
      (State.failPart_goes _ _ _ _ _ _ _ _) (by decide)
  · split
    · exact counted.then (State.countPrimingRead_goes _ l) (by decide)
    · exact counted.then (State.primingFailed_goes _ l _ _ a c) (by decide)

theorem State.resolveOffline_goes (l : LaneId) (s : State) (row : Nat × ReadEntry) :
    s.Goes (s.resolveOffline l row) fetchParts := by
  unfold State.resolveOffline
  split
  · exact s.failPart_goes _ _ _ _ _ _ _
  · split
    · exact .refl _ _
    · exact (s.suspendSegment_goes _ _ _).wider (by decide)
  · exact .refl _ _

theorem State.loseQueue_goes (s : State) (l : LaneId) : s.Goes (s.loseQueue l) fetchParts :=
  ((State.Goes.refl s _).then
    (State.foldl_goes (ps := fetchParts) _ (fun s n => s.loseQueued_goes l n) _ _) (by decide)).then
    (State.setLane_goes _ l _) (by decide)

/-! ### The voice controller -/

/-- The parts that the ending of a voice changes. -/
abbrev endingParts : List Part := [.report, .library, .voices, .slots, .lanes]

theorem State.endVoiceAt_goes (s : State) (v : Nat) (r : EndReason) (p : Int) :
    s.Goes (s.endVoiceAt v r p) endingParts := by
  unfold State.endVoiceAt
  split
  · exact .refl _ _
  · exact ((((State.Goes.refl s _).then (s.appendEnd_goes _) (by decide)).then
      (State.uncountVoice_goes _ _) (by decide)).then
      (State.cancelRing_goes _ v) (by decide)).then (State.freeVoice_goes _ v) (by decide)

theorem State.endVoice_goes (s : State) (v : Nat) (r : EndReason) : s.Goes (s.endVoice v r) endingParts := by
  unfold State.endVoice
  split
  · exact .refl _ _
  · exact s.endVoiceAt_goes _ _ _

theorem State.endAllVoices_goes (s : State) : s.Goes s.endAllVoices endingParts :=
  State.foldl_goes _ (fun s v => s.endVoice_goes v .cadence) _ _

theorem State.makeLate_goes (s : State) (v : Nat) (x : Voice) (q : PeriodIndex) (h : s.voice? v = some x) :
    s.Goes (s.makeLate v x q) endingParts :=
  (((State.Goes.refl s endingParts).then
    (s.putVoice_goes_same v { x with startPeriod := q, late := true } x h rfl) (by decide)).then
    (State.raise_goes _ (.lateStart x.tag x.startPeriod q)) (by decide)).then
    (State.shiftDeadlines_goes _ _ _) (by decide)

theorem State.judgeLate_goes (s : State) (v : Nat) (q : PeriodIndex) : s.Goes (s.judgeLate v q) endingParts := by
  unfold State.judgeLate
  split
  · exact .refl _ _
  · rename_i h
    split
    · exact s.makeLate_goes _ _ _ h
    · exact .refl _ _

theorem State.judgeAllLate_goes (s : State) (q : PeriodIndex) : s.Goes (s.judgeAllLate q) endingParts :=
  State.foldl_goes _ (fun s v => s.judgeLate_goes v q) _ _

theorem State.refuseStart_goes (s : State) (tag : Tag) (r : EndReason) : s.Goes (s.refuseStart tag r) [.report] :=
  (s.appendEnd_goes _).then (State.raise_goes _ _) (by decide)

theorem Articulation.advance_below {a : Articulation} (h : a.cursor < a.roundRobinCount) :
    a.advance.cursor < a.advance.roundRobinCount := by
  unfold Articulation.advance
  split
  · exact Nat.mod_lt _ (by omega)
  · exact h

/-- The parts that a voice request changes. -/
abbrev requestParts : List Part := .nextOrder :: endingParts

theorem State.acceptStart_goes (s : State) (v : Nat) (e : SampleEntry) (x : Voice) (a : Nat)
    (own : ∀ w y, s.voice? w = some y → y.tag = x.tag → w = v) : s.Goes (s.acceptStart v e x a) requestParts := by
  have counted := (((State.Goes.refl s requestParts).then (s.putVoice_goes v x own) (by decide)).then
    (State.countVoice_goes _ x.handle) (by decide)).then (State.setNextOrder_goes _ (s.nextOrder + 1)) (by decide)
  have kept : (((s.putVoice v x).countVoice x.handle).setNextOrder (s.nextOrder + 1)).articulation a =
      s.articulation a := by
    unfold State.countVoice
    split <;> rfl
  have filled := (counted.then (State.putArticulation_goes _ a (s.articulation a).advance
    (fun c => Articulation.advance_below (kept ▸ c a))) (by decide)).then (State.prefill_goes _ v x e) (by decide)
  unfold State.acceptStart
  dsimp only
  split
  · exact filled
  · exact filled.then (State.judgeLate_goes _ _ _) (by decide)

/-- R39: a tag that the tag map does not hold belongs to no record. -/
theorem State.findTag?_none {s : State} {tag : Tag} (h : s.findTag? tag = none) {v : Nat} {x : Voice}
    (hx : s.voice? v = some x) : x.tag ≠ tag := by
  unfold State.findTag? at h
  rw [Option.map_eq_none_iff, List.find?_eq_none] at h
  have := h (v, x) (Table.mem_of_get? hx)
  simpa using this

/-- A voice that ends leaves the others as they were. -/
theorem State.endVoice_voice? (s : State) (v w : Nat) (r : EndReason) :
    (s.endVoice v r).voice? w = if w = v then none else s.voice? w := by
  unfold State.endVoice
  split
  · rename_i h
    split
    · rename_i e; rw [e, h]
    · rfl
  · rename_i x h
    unfold State.endVoiceAt
    rw [h]
    dsimp only
    rw [State.freeVoice_voice?]
    have same : ((((s.appendEnd (x.endRecord r x.emit)).uncountVoice x.handle).cancelRing v)).voices = s.voices :=
      (((((State.Goes.refl s [.report, .library, .slots, .lanes]).then (s.appendEnd_goes _) (by decide)).then
        (State.uncountVoice_goes _ x.handle) (by decide)).then
          (State.cancelRing_goes _ v) (by decide)).only).voices (by decide)
    simp [State.voice?, same]

theorem State.allocateStart_goes (s : State) (e : SampleEntry) (tag : Tag) (a z n : Nat) (p : PeriodIndex) (o c : Nat)
    (h : s.findTag? tag = none) : s.Goes (s.allocateStart e tag a z n p o c) requestParts := by
  unfold State.allocateStart
  split
  · exact s.acceptStart_goes _ _ _ _ fun w y hy et => absurd et (State.findTag?_none h hy)
  · split
    · exact (s.refuseStart_goes _ _).wider (by decide)
    · rename_i v victim _
      have stolen := ((State.Goes.refl s requestParts).then (s.endVoice_goes v .stolen) (by decide)).then
        (State.raise_goes _ (.voiceStolen victim.tag tag)) (by decide)
      refine stolen.then (State.acceptStart_goes _ _ _ _ _ fun w y hy et => ?_) (by decide)
      have hy' : (s.endVoice v .stolen).voice? w = some y := hy
      rw [State.endVoice_voice?] at hy'
      split at hy'
      · cases hy'
      · exact absurd et (State.findTag?_none h hy')

theorem State.takeStart_goes (s : State) (tag : Tag) (a n w : Nat) (p : PeriodIndex) (o c : Nat) :
    s.Goes (s.takeStart tag a n w p o c) requestParts := by
  unfold State.takeStart
  split
  · exact (s.raise_goes _).wider (by decide)
  · rename_i absent
    have absent : s.findTag? tag = none := by simpa using absent
    split
    · exact (s.refuseStart_goes _ _).wider (by decide)
    · split
      · exact (s.refuseStart_goes _ _).wider (by decide)
      · exact .refl _ _
      · exact s.allocateStart_goes _ _ _ _ _ _ _ _ absent

theorem State.applyRelease_goes (s : State) (v : Nat) (x : Voice) (p : Int) (h : s.voice? v = some x) :
    s.Goes (s.applyRelease v x p) endingParts := by
  unfold State.applyRelease
  split
  · exact s.endVoice_goes _ _
  · exact (s.putVoice_goes_same v { x with releasePoint := some p } x h rfl).wider (by decide)

theorem State.takeRelease_goes (s : State) (tag : Tag) (p : PeriodIndex) (o : Nat) :
    s.Goes (s.takeRelease tag p o) endingParts := by
  unfold State.takeRelease
  split
  · exact (s.raise_goes _).wider (by decide)
  · split
    · exact .refl _ _
    · rename_i h
      split
      · exact .refl _ _
      · split
        · exact s.applyRelease_goes _ _ _ h
        · exact ((State.Goes.refl s _).then (s.raise_goes _) (by decide)).then
            (State.applyRelease_goes _ _ _ _ h) (by decide)

theorem State.stopVoice_goes (s : State) (v : Nat) : s.Goes (s.stopVoice v) endingParts := by
  unfold State.stopVoice
  split
  · exact .refl _ _
  · rename_i x h
    split
    · exact s.endVoice_goes _ _
    · exact (s.putVoice_goes_same v x.stopping x h rfl).wider (by decide)
    · exact (s.putVoice_goes_same v x.stopping x h rfl).wider (by decide)
    · exact .refl _ _

theorem State.takeStop_goes (s : State) (tag : Tag) : s.Goes (s.takeStop tag) endingParts := by
  unfold State.takeStop
  split
  · exact (s.raise_goes _).wider (by decide)
  · exact s.stopVoice_goes _

theorem State.takeStopAll_goes (s : State) : s.Goes s.takeStopAll endingParts :=
  State.foldl_goes _ (fun s v => s.stopVoice_goes v) _ _

end Sys2Proof.Machine
end

