-- ==== Sys2Proof/Laws/GoesPass.lean ====
section
/-! SUPPORT. Once for each operation of the render engine, the cadence tracker and a pass's completion: which parts of
the state it may change, that it reports by occurrences and end records only, and that it keeps the invariants. -/

namespace Sys2Proof.Machine

/-! ### The render engine -/

/-- R156, R157: a block that is taken leaves the queue within its bound. -/
theorem offerBlock_length {limit : Nat} {period : PeriodIndex} {q r : List DataFrame} {b : Block}
    (h : offerBlock limit period q b = some r) (le : q.length ≤ dataQueueLimit) : r.length ≤ dataQueueLimit := by
  unfold offerBlock at h
  split at h
  · rename_i f open_
    cases h
    have : q ≠ [] := by
      rintro rfl
      simp [openFrame?] at open_
    have := List.length_pos_iff.2 this
    simp only [List.length_append, List.length_dropLast, List.length_singleton]
    omega
  · split at h
    · cases h
      simp only [List.length_append, List.length_singleton]
      omega
    · cases h

theorem State.countDropped_goes (s : State) : s.Goes s.countDropped [.pass] := by
  unfold State.countDropped
  split
  · exact .refl _ _
  · exact s.setPass_goes _

theorem State.offer_goes (s : State) (q : PeriodIndex) (b : Block) : s.Goes (s.offer q b) [.port, .pass] := by
  unfold State.offer
  split
  · split
    · rename_i q' h
      exact (s.setPort_goes { s.port with dataQueue := q' } fun k =>
        ⟨k.1, k.2.1, k.2.2.1, offerBlock_length h k.2.2.2.1, k.2.2.2.2⟩).wider (by decide)
    · exact s.countDropped_goes.wider (by decide)
  · exact .refl _ _

theorem State.raiseBlockEvents_goes (s : State) (x : Voice) (q : PeriodIndex) (r : Rendered) :
    s.Goes (s.raiseBlockEvents x q r) [.report] := by
  unfold State.raiseBlockEvents
  dsimp only
  split <;> split
  · exact s.raise_goes _
  · exact (State.Goes.refl s _).then (s.raise_goes _) (by decide) |>.then (State.raise_goes _ _) (by decide)
  · exact .refl _ _
  · exact s.raise_goes _

theorem State.passRendered_goes (s : State) (v : Nat) (x : Voice) :
    s.Goes (s.passRendered v x) [.slots, .lanes, .pass] := by
  unfold State.passRendered
  split
  · exact .refl _ _
  · dsimp only
    split
    · exact (s.passChunk_goes _ _ _).wider (by decide)
    · exact ((State.Goes.refl s _).then (s.passChunk_goes v x _) (by decide)).then (State.setPass_goes _ _) (by decide)

/-- The parts that a render pass changes. -/
abbrev renderParts : List Part := [.port, .report, .library, .voices, .slots, .lanes, .pass]

theorem State.settleVoice_goes (s : State) (v : Nat) (y : Voice) (b : Option BlockEnding) (d : Disposition) :
    s.Goes (s.settleVoice v y b d) endingParts := by
  unfold State.settleVoice
  split
  · exact s.endVoiceAt_goes _ _ _
  · split
    · exact s.endVoiceAt_goes _ _ _
    · exact .refl _ _

theorem enterBlock_tag (p : Nat) (x : Voice) (e : SampleEntry) : (enterBlock p x e).tag = x.tag := by
  unfold enterBlock
  dsimp only
  split <;> rfl

theorem State.renderVoice_goes (s : State) (q : PeriodIndex) (v : Nat) (x : Voice) (e : SampleEntry)
    (h : s.voice? v = some x) : s.Goes (s.renderVoice q v x e) renderParts := by
  have told : ∀ r y, s.Goes ((s.raiseBlockEvents x q r).passRendered v y) renderParts := fun r y =>
    ((State.Goes.refl s _).then (s.raiseBlockEvents_goes x q r) (by decide)).then
      (State.passRendered_goes _ v y) (by decide)
  have voices : ∀ r y, ((s.raiseBlockEvents x q r).passRendered v y).voices = s.voices := fun r y =>
    (((State.Goes.refl s [.report, .slots, .lanes, .pass]).then (s.raiseBlockEvents_goes x q r) (by decide)).then
      (State.passRendered_goes _ v y) (by decide)).only.voices (by decide)
  have settled : ∀ (t : State) (r : Rendered) (d : Disposition) (b : Option BlockEnding), s.Goes t renderParts →
      t.voices = s.voices → s.Goes ((t.putVoice v
        (advanceVoice s.config.period (enterBlock s.config.period x e) r d)).settleVoice v
        (enterBlock s.config.period x e) b d) renderParts := fun t r d b ht hv =>
    (ht.then (t.putVoice_goes_same v (advanceVoice s.config.period (enterBlock s.config.period x e) r d) x
      (by simpa [State.voice?, hv] using h) (enterBlock_tag s.config.period x e)) (by decide)).then
      (State.settleVoice_goes _ _ _ _ _) (by decide)
  unfold State.renderVoice
  dsimp only
  split
  · refine settled _ _ _ _ ((told _ _).then (State.offer_goes _ _ _) (by decide)) ?_
    exact ((State.offer_goes _ _ _).only.voices (by decide)).trans (voices _ _)
  · exact settled _ _ _ _ (told _ _) (voices _ _)

theorem State.renderRecord_goes (s : State) (q : PeriodIndex) (v : Nat) : s.Goes (s.renderRecord q v) renderParts := by
  unfold State.renderRecord
  split
  · exact .refl _ _
  · rename_i h
    split
    · exact .refl _ _
    · split
      · exact s.renderVoice_goes _ _ _ _ h
      · exact .refl _ _

theorem State.passTurn_goes (s : State) (v : Nat) : s.Goes (s.passTurn v) [.pass] := by
  unfold State.passTurn
  split
  · exact .refl _ _
  · exact s.setPass_goes _

theorem State.renderTurn_goes (s : State) (q : PeriodIndex) (v : Nat) : s.Goes (s.renderTurn q v) renderParts :=
  (s.renderRecord_goes q v).then (State.passTurn_goes _ v) (by decide)

theorem State.renderTurns_goes (s : State) (q : PeriodIndex) (l : List Nat) : s.Goes (s.renderTurns q l) renderParts :=
  State.foldl_goes _ (fun s v => s.renderTurn_goes q v) _ _

theorem State.beginPass_goes (s : State) (q : PeriodIndex) : s.Goes (s.beginPass q) renderParts :=
  ((State.Goes.refl s _).then s.applyMatrices_goes (by decide)).then (State.renderTurns_goes _ q _) (by decide)

/-! ### The cadence tracker -/

/-- The parts that the tracker changes: its own, the reports, the voices it ends or makes late, and the pass it opens. -/
abbrev trackerParts : List Part := .cadence :: .pass :: endingParts

theorem State.raiseCadence_goes (s : State) (c : Cadence) : s.Goes (s.raiseCadence c) [.report] :=
  s.raise_goes _

/-- The tracker set, and its change of state told. -/
theorem State.setCadence_raise_goes (s : State) (x c : Cadence) :
    s.Goes ((s.setCadence x).raiseCadence c) [.cadence, .report] :=
  ((State.Goes.refl s _).then (s.setCadence_goes x) (by decide)).then (State.raiseCadence_goes _ _) (by decide)

theorem State.tickError_goes (s : State) : s.Goes s.tickError [.cadence, .report] := by
  unfold State.tickError
  dsimp only
  split
  · exact (s.setCadence_goes _).wider (by decide)
  · split
    · exact ((State.Goes.refl s _).then (s.setCadence_goes _) (by decide)).then (State.raise_goes _ _) (by decide)
    · exact (s.setCadence_goes _).wider (by decide)

theorem State.openPass_goes (s : State) (q : PeriodIndex) (w : Nat) : s.Goes (s.openPass q w) [.cadence, .pass] :=
  ((State.Goes.refl s _).then (s.setCadence_goes _) (by decide)).then (State.setPass_goes _ _) (by decide)

theorem State.firstLock_goes (s : State) (n : PeriodIndex) : s.Goes (s.firstLock n) trackerParts :=
  (((State.Goes.refl s _).then (s.setCadence_goes _) (by decide)).then (State.judgeAllLate_goes _ _) (by decide)).then
    (State.openPass_goes _ _ _) (by decide)

theorem State.shiftLock_goes (s : State) (n q : PeriodIndex) : s.Goes (s.shiftLock n q) trackerParts :=
  ((((State.Goes.refl s _).then (s.raise_goes _) (by decide)).then (State.endAllVoices_goes _) (by decide)).then
    (State.setCadence_goes _ _) (by decide)).then (State.openPass_goes _ _ _) (by decide)

theorem State.lock_goes (s : State) (n : PeriodIndex) : s.Goes (s.lock n) trackerParts := by
  have locked := (State.Goes.refl s trackerParts).then (s.setCadence_raise_goes
    { s.cadence.clearWindows with state := .locked, misaligned := false, candidate := none, missed := 0 } s.cadence)
      (by decide)
  unfold State.lock
  dsimp only
  split
  · exact locked.then (State.firstLock_goes _ _) (by decide)
  · split
    · exact locked.then (State.openPass_goes _ _ _) (by decide)
    · exact locked.then (State.shiftLock_goes _ _ _) (by decide)

theorem State.judgeCandidate_goes (s : State) (n : PeriodIndex) (a : Nat) :
    s.Goes (s.judgeCandidate n a) trackerParts := by
  unfold State.judgeCandidate
  split
  · exact (s.setCadence_goes _).wider (by decide)
  · split
    · exact s.lock_goes _
    · exact (s.setCadence_goes _).wider (by decide)

theorem State.returnToLocked_goes (s : State) : s.Goes s.returnToLocked [.cadence, .report] := by
  unfold State.returnToLocked
  split
  · exact s.setCadence_raise_goes _ _
  · exact (s.setCadence_goes _).wider (by decide)

theorem State.expectedTick_goes (s : State) (q : PeriodIndex) (a : Nat) :
    s.Goes (s.expectedTick q a) [.cadence, .report, .pass] := by
  unfold State.expectedTick
  dsimp only
  split
  · exact ((State.Goes.refl s _).then s.returnToLocked_goes (by decide)).then (State.openPass_goes _ _ _) (by decide)
  · exact (((State.Goes.refl s _).then s.tickError_goes (by decide)).then
      (State.returnToLocked_goes _) (by decide)).then
      (State.openPass_goes _ _ _) (by decide)

theorem State.otherTick_goes (s : State) (n x : PeriodIndex) : s.Goes (s.otherTick n x) [.cadence, .report] := by
  unfold State.otherTick
  split
  · exact s.tickError_goes
  · split
    · exact s.tickError_goes
    · exact .refl _ _

theorem State.judgeRunning_goes (s : State) (n : PeriodIndex) (a : Nat) :
    s.Goes (s.judgeRunning n a) trackerParts := by
  unfold State.judgeRunning
  split
  · exact .refl _ _
  · split
    · exact (s.expectedTick_goes _ _).wider (by decide)
    · exact (s.otherTick_goes _ _).wider (by decide)

theorem State.judgeTick_goes (s : State) (n : PeriodIndex) (a : Nat) : s.Goes (s.judgeTick n a) trackerParts := by
  have set := (State.Goes.refl s trackerParts).then
    (s.setCadence_goes { s.cadence with lastTick := some n }) (by decide)
  unfold State.judgeTick
  dsimp only
  split
  · exact set.then (State.setCadence_raise_goes _ _ _) (by decide)
  · exact set.then (State.setCadence_raise_goes _ _ _) (by decide)
  · exact set.then (State.judgeCandidate_goes _ _ _) (by decide)
  · exact set.then (State.judgeRunning_goes _ _ _) (by decide)
  · exact set.then (State.judgeRunning_goes _ _ _) (by decide)

theorem State.enterLost_goes (s : State) : s.Goes s.enterLost trackerParts := by
  unfold State.enterLost
  dsimp only
  split
  · exact (s.setCadence_raise_goes _ _).wider (by decide)
  · exact ((State.Goes.refl s _).then (s.setCadence_raise_goes _ _) (by decide)).then
      (State.endAllVoices_goes _) (by decide)

theorem State.coverMissed_goes (s : State) (q : PeriodIndex) :
    s.Goes (s.coverMissed q) [.cadence, .report, .pass] := by
  have counted := ((State.Goes.refl s [.cadence, .report, .pass]).then
    (s.setCadence_goes { s.cadence with missed := s.cadence.missed + 1 }) (by decide)).then
      (State.tickError_goes _) (by decide)
  unfold State.coverMissed
  dsimp only
  split
  · exact (counted.then (State.setCadence_raise_goes _ _ _) (by decide)).then (State.openPass_goes _ _ _) (by decide)
  · exact counted.then (State.openPass_goes _ _ _) (by decide)

theorem State.judgeExpiry_goes (s : State) : s.Goes s.judgeExpiry trackerParts := by
  unfold State.judgeExpiry
  split
  · split
    · exact (s.coverMissed_goes _).wider (by decide)
    · exact s.enterLost_goes
  · split
    · exact (s.coverMissed_goes _).wider (by decide)
    · exact s.enterLost_goes
  · exact .refl _ _

theorem State.limitAction_goes (s : State) : s.Goes s.limitAction [.cadence, .report] := by
  unfold State.limitAction State.searchAgain State.markMisaligned
  split
  · exact s.setCadence_raise_goes _ _
  · split
    · exact (s.setCadence_goes _).wider (by decide)
    · exact s.setCadence_raise_goes _ _

theorem State.actOnLimit_goes (s : State) : s.Goes s.actOnLimit [.cadence, .report] := by
  unfold State.actOnLimit
  split
  · exact s.limitAction_goes
  · exact .refl _ _

/-- The parts that taking an event of the tracker changes, the rendering of the pass it opens included. -/
abbrev eventParts : List Part := .cadence :: renderParts

theorem State.afterEvent_goes (s : State) : s.Goes s.afterEvent eventParts := by
  unfold State.afterEvent
  split
  · exact (s.beginPass_goes _).wider (by decide)
  · exact s.actOnLimit_goes.wider (by decide)

theorem State.takeWaiting_goes (s : State) (i : Waiting) : s.Goes (s.takeWaiting i) eventParts := by
  unfold State.takeWaiting
  split
  · exact ((State.Goes.refl s _).then (s.judgeTick_goes _ _) (by decide)).then (State.afterEvent_goes _) (by decide)
  · exact ((State.Goes.refl s _).then s.judgeExpiry_goes (by decide)).then (State.afterEvent_goes _) (by decide)

theorem State.takeAllWaiting_goes (n : Nat) (s : State) : s.Goes (State.takeAllWaiting n s) eventParts := by
  induction n generalizing s with
  | zero => exact .refl _ _
  | succ n ih =>
    unfold State.takeAllWaiting
    split
    · exact .refl _ _
    · split
      · exact .refl _ _
      · exact (((State.Goes.refl s _).then (s.setCadence_goes _) (by decide)).then
          (State.takeWaiting_goes _ _) (by decide)).then (ih _) (by decide)

theorem State.passTime_goes (s : State) (n : Nat) : s.Goes (s.passTime n) [.cadence] :=
  s.setCadence_goes _

theorem State.holdTick_goes (s : State) (n : PeriodIndex) (a : Nat) : s.Goes (s.holdTick n a) [.cadence, .report] := by
  unfold State.holdTick
  split
  · exact (s.setCadence_goes _).wider (by decide)
  · split
    · exact s.tickError_goes
    · exact .refl _ _

theorem State.forceSearch_goes (s : State) : s.Goes s.forceSearch [.cadence, .report] := by
  unfold State.forceSearch
  split
  · exact .refl _ _
  · exact s.setCadence_raise_goes _ _

/-! ### Completion of a pass -/

theorem State.reportOverrun_goes (s : State) (p : Pass) : s.Goes (s.reportOverrun p) [.report] := by
  unfold State.reportOverrun
  split
  · exact .refl _ _
  · exact s.raise_goes _

theorem State.refillPassed_goes (s : State) (p : Pass) : s.Goes (s.refillPassed p) fetchParts :=
  State.foldl_goes _ (fun s v => s.refillVoice_goes v) _ _

theorem State.flushEnds_goes (s : State) : s.Goes s.flushEnds [.report] :=
  ⟨s.setReport_changes _, .flush .refl _, ⟨id, id, id, id⟩⟩

theorem State.completionReports_goes (s : State) (p : Pass) : s.Goes (s.completionReports p) fetchParts := by
  unfold State.completionReports
  dsimp only
  split <;> split
  · exact (((State.Goes.refl s _).then (s.reportOverrun_goes p) (by decide)).then
      (State.refillPassed_goes _ p) (by decide)).then
      (State.flushEnds_goes _) (by decide)
  · exact (((State.Goes.refl s _).then (s.refillPassed_goes p) (by decide)).then
      (State.flushEnds_goes _) (by decide)).then
      (State.reportOverrun_goes _ p) (by decide)
  · exact (((State.Goes.refl s _).then (s.reportOverrun_goes p) (by decide)).then
      (State.flushEnds_goes _) (by decide)).then
      (State.refillPassed_goes _ p) (by decide)
  · exact (((State.Goes.refl s _).then s.flushEnds_goes (by decide)).then
      (State.reportOverrun_goes _ p) (by decide)).then
      (State.refillPassed_goes _ p) (by decide)

theorem closeOpenFrame_length (q : List DataFrame) : (closeOpenFrame q).length = q.length := by
  unfold closeOpenFrame
  split
  · rfl
  · rename_i h
    have : q ≠ [] := by rintro rfl; simp at h
    have := List.length_pos_iff.2 this
    simp only [List.length_append, List.length_dropLast, List.length_singleton]
    omega

/-- The parts that a completion changes before its deferred actions. -/
abbrev completionParts : List Part := [.port, .report, .slots, .lanes, .cadence, .pass, .freeCount]

theorem State.completePass_goes (s : State) (p : Pass) : s.Goes (s.completePass p) completionParts := by
  have closed := s.setPort_goes { s.port with dataQueue := closeOpenFrame s.port.dataQueue } fun k =>
    ⟨k.1, k.2.1, k.2.2.1, (closeOpenFrame_length _).symm ▸ k.2.2.2.1, k.2.2.2.2⟩
  have advanced := (((State.Goes.refl s completionParts).then closed (by decide)).then
    (State.setPass_goes _ none) (by decide)).then
    (State.setCadence_goes _ { s.cadence with horizon := some (p.period + 1) }) (by decide)
  have reported := advanced.then (State.completionReports_goes _ p) (by decide)
  exact (reported.then (State.dispatch_goes _) (by decide)).then (State.setFreeCount_goes _ _) (by decide)

theorem State.renderRest_goes (s : State) (p : Pass) : s.Goes (s.renderRest p) renderParts :=
  s.renderTurns_goes _ _

/-! ### What the part does by itself -/

theorem State.idleTurn_goes (s : State) (p : Pass) (v : Nat) :
    s.Goes (s.idleTurn p v) (.cadence :: .freeCount :: renderParts) :=
  ((((State.Goes.refl s _).then (s.renderTurn_goes p.period v) (by decide)).then
    (State.passTime_goes _ _) (by decide)).then
    (State.setFreeCount_goes _ _) (by decide)).then
    (State.dispatch_goes _) (by decide)

/-- While no QUERY_STATUS is being read; while one is: `State.readOn_changes` and its fellows. -/
theorem State.idleOn_goes (s : State) : s.Goes s.idleOn (.cadence :: .freeCount :: renderParts) := by
  unfold State.idleOn
  split
  · exact .refl _ _
  · split
    · exact (s.passTime_goes 1).wider (by decide)
    · split
      · exact (s.passTime_goes 1).wider (by decide)
      · exact s.idleTurn_goes _ _

end Sys2Proof.Machine
end

