-- ==== Sys2Proof/Laws/GoesRequest.lean ====
section
/-! SUPPORT. Once for each operation of the link port and the management unit: which parts of the state it may change,
that it reports by occurrences and end records only, and that it keeps the invariants; and what taking a request,
answering it and the soft reset do to the reports. -/

namespace Sys2Proof.Machine

/-! ### The link port -/

theorem State.acceptVoiceItem_goes (s : State) (i : VoiceItem) : s.Goes (s.acceptVoiceItem i) [.port, .report] := by
  unfold State.acceptVoiceItem
  split
  · exact (s.setPort_goes { s.port with voiceQueue := s.port.voiceQueue ++ [i] } fun k =>
      ⟨by simp only [List.length_append, List.length_singleton]; omega, k.2⟩).wider (by decide)
  · exact (s.raise_goes _).wider (by decide)

theorem State.acceptTick_goes (s : State) (n : PeriodIndex) : s.Goes (s.acceptTick n) [.port, .report] := by
  unfold State.acceptTick
  split
  · exact (s.setPort_goes { s.port with
      handed := s.port.handed ++ [{ index := n, arrival := s.cadence.clock }] } fun k => k).wider (by decide)
  · split
    · exact (s.setPort_goes { s.port with
        pendingTicks := s.port.pendingTicks ++ [{ index := n, ahead := s.port.voiceQueue.length }] } fun k =>
        ⟨k.1, by simp only [List.length_append, List.length_singleton]; omega, k.2.2⟩).wider (by decide)
    · exact (s.raise_goes _).wider (by decide)

theorem State.acceptItem_goes (s : State) (i : StreamItem) : s.Goes (s.acceptItem i) [.port, .report] := by
  cases i with
  | voice i => exact s.acceptVoiceItem_goes i
  | tick n => exact s.acceptTick_goes n

theorem State.countMalformed_goes (s : State) : s.Goes s.countMalformed [.port] :=
  s.setPort_goes _ fun k => ⟨k.1, k.2.1, k.2.2.1, k.2.2.2.1, Nat.min_le_right _ _⟩

theorem State.acceptStream_goes (s : State) (b : List Byte) : s.Goes (s.acceptStream b) [.port, .report] := by
  unfold State.acceptStream
  split
  · exact s.countMalformed_goes.wider (by decide)
  · exact State.foldl_goes _ (fun s i => s.acceptItem_goes i) _ _

theorem State.acceptRequest_goes (s : State) (r : Request) : s.Goes (s.acceptRequest r) [.port, .report] := by
  unfold State.acceptRequest
  split
  · exact (s.setPort_goes { s.port with mgmtQueue := s.port.mgmtQueue ++ [r] } fun k =>
      ⟨k.1, k.2.1, by simp only [List.length_append, List.length_singleton]; omega, k.2.2.2⟩).wider (by decide)
  · exact (s.raise_goes _).wider (by decide)

theorem State.classify_goes (s : State) (f : Frame) : s.Goes (s.classify f) [.port, .report] := by
  unfold State.classify
  split
  · exact s.acceptStream_goes _
  · exact s.acceptRequest_goes _

theorem Port.itemTaken_bounded {p : Port} (clock : Nat) (h : p.Bounded) : (p.itemTaken clock).Bounded := by
  have short : ∀ l : List PendingTick, (l.dropWhile fun t => t.ahead == 0).length ≤ l.length := fun l =>
    (List.dropWhile_suffix _).length_le
  refine ⟨h.1, (short _).trans ?_, h.2.2⟩
  rw [List.length_map]
  exact h.2.1

theorem State.finishItem_goes (s : State) : s.Goes s.finishItem [.port, .slots, .lanes] :=
  ((State.Goes.refl s _).then (s.setPort_goes _ (Port.itemTaken_bounded _)) (by decide)).then
    (State.dispatch_goes _) (by decide)

theorem State.popItem_goes (s : State) (i : VoiceItem) (rest : List VoiceItem) (h : s.port.voiceQueue = i :: rest) :
    s.Goes (s.popItem rest) [.port] := by
  refine s.setPort_goes { s.port with voiceQueue := rest } fun k => ⟨?_, k.2⟩
  have := k.1
  rw [h, List.length_cons] at this
  exact Nat.le_of_succ_le this

/-! ### Taking a request and answering it -/

theorem State.beginRequest_changes (s : State) (r : Request) : s.ChangesOnly (s.beginRequest r) [.port, .report] :=
  ((s.setPort_changes _).wider (by decide)).trans ((State.setReport_changes _ _).wider (by decide))

@[simp] theorem State.beginRequest_busy (s : State) (r : Request) : (s.beginRequest r).report.busy = some r := rfl

theorem State.reply_changes (s : State) (r : Request) (a : Answer) : s.ChangesOnly (s.reply r a) [.report] :=
  s.setReport_changes _

@[simp] theorem State.reply_control (s : State) (r : Request) (a : Answer) :
    (s.reply r a).report.control = s.report.control ++ [.reply r.source r.number r.kind a] := rfl
@[simp] theorem State.reply_busy (s : State) (r : Request) (a : Answer) : (s.reply r a).report.busy = none := rfl
@[simp] theorem State.reply_reading (s : State) (r : Request) (a : Answer) :
    (s.reply r a).report.reading = s.report.reading := rfl
@[simp] theorem State.reply_endList (s : State) (r : Request) (a : Answer) :
    (s.reply r a).report.endList = s.report.endList := rfl
@[simp] theorem State.reply_event (s : State) (r : Request) (a : Answer) (k : EventKind) :
    (s.reply r a).report.event k = s.report.event k := rfl

/-- R164: a command of the management unit either waits, or takes the request at the head of the queue. -/
theorem State.serve_next {s t : State} {fits : Request → Bool} {f : Request → State → State}
    (h : s.serve fits f = .next t) :
    t = s ∨ ∃ r rest, s.port.mgmtQueue = r :: rest ∧ s.report.grants = true ∧ fits r = true ∧
      t = f r (s.beginRequest r) := by
  unfold State.serve State.request? at h
  cases hq : s.port.mgmtQueue with
  | nil => rw [hq] at h; exact .inl (Host.Outcome.next.inj h).symm
  | cons r rest =>
    rw [hq] at h
    by_cases g : (s.report.grants && fits r) = true
    · dsimp only at h
      rw [if_pos g] at h
      have := Bool.and_eq_true_iff.1 g
      exact .inr ⟨r, rest, rfl, this.1, this.2, (Host.Outcome.next.inj h).symm⟩
    · dsimp only at h
      rw [if_neg g] at h
      exact .inl (Host.Outcome.next.inj h).symm

/-- R154: a request that the command fits, at the head of the queue of a unit that may take it, is taken. -/
theorem State.serve_taken (s : State) (fits : Request → Bool) (f : Request → State → State) (r : Request)
    (rest : List Request) (hq : s.port.mgmtQueue = r :: rest) (hg : s.report.grants = true) (hf : fits r = true) :
    s.serve fits f = .next (f r (s.beginRequest r)) := by
  simp [State.serve, State.request?, hq, hg, hf]

/-! ### The requests -/

theorem State.storeLoad_goes (s : State) (h : Nat) (e : SampleEntry) : s.Goes (s.storeLoad h e) [.library, .lanes] := by
  unfold State.storeLoad
  split
  · exact (s.putEntry_goes _ _).wider (by decide)
  · exact ((State.Goes.refl s _).then (s.putEntry_goes _ _) (by decide)).then (State.joinPriming_goes _ _ _) (by decide)

theorem State.announceLoad_goes (s : State) (h : Nat) (e : SampleEntry) : s.Goes (s.announceLoad h e) [.report] := by
  unfold State.announceLoad
  split
  · exact s.raise_goes _
  · exact s.raise_goes _
  · exact .refl _ _
  · exact .refl _ _

theorem State.retireEntry_goes (s : State) (h : Nat) (e : SampleEntry) :
    s.Goes (s.retireEntry h e) [.library, .lanes] := by
  unfold State.retireEntry
  split
  · exact (((State.Goes.refl s _).then (s.discardReads_goes _ _) (by decide)).then
      (State.leavePriming_goes _ _ _) (by decide)).then
      (State.clearEntry_goes _ _) (by decide)
  · split
    · exact (s.clearEntry_goes _).wider (by decide)
    · exact (s.putEntry_goes _ _).wider (by decide)
  · exact (s.clearEntry_goes _).wider (by decide)
  · exact .refl _ _

/-- A library with the same articulations keeps the cursors. -/
theorem State.setLibrary_goes (s : State) (x : Library) (h : x.articulations = s.library.articulations) :
    s.Goes (s.setLibrary x) [.library] := by
  refine ⟨s.setLibrary_changes x, .refl, ⟨id, id, fun k i => ?_, id⟩⟩
  have : (s.setLibrary x).articulation i = s.articulation i := by simp [State.articulation, h]
  rw [this]
  exact k i

theorem State.putZone_goes (s : State) (i : Nat) (z : Zone) : s.Goes (s.putZone i z) [.library] :=
  s.setLibrary_goes { s.library with zones := Table.put s.library.zones i Zone.initial z } rfl
theorem State.putZones_goes (s : State) (b : List Byte) : s.Goes (s.putZones b) [.library] :=
  State.foldl_goes _ (fun s _ => s.putZone_goes _ _) _ _
theorem State.putCurve_goes (s : State) (i : Nat) (c : Curve) : s.Goes (s.putCurve i c) [.library] :=
  s.setLibrary_goes { s.library with curves := Table.put s.library.curves i Curve.initial c } rfl
theorem State.putMatrix_goes (s : State) (i : Nat) (m : FoldMatrix) : s.Goes (s.putMatrix i m) [.library] :=
  s.setLibrary_goes { s.library with matrices := Table.put s.library.matrices i FoldMatrix.initial m } rfl

theorem State.configureTracker_goes (s : State) : s.Goes s.configureTracker [.cadence, .report] := by
  unfold State.configureTracker
  dsimp only
  split
  · exact (s.setCadence_goes _).wider (by decide)
  · exact s.setCadence_raise_goes _ _

theorem State.adopt_goes (s : State) (r : Request) : s.Goes (s.adopt r) [.port, .config, .cadence] := by
  have t := ((State.Goes.refl s [.port, .config, .cadence]).then (s.setConfig_goes (configOf r.body)) (by decide)).then
    (State.setPort_goes _ { s.port with partner := some r.source } fun k => k) (by decide)
  unfold State.adopt
  dsimp only
  split
  · exact t.then (State.setCadence_goes _ _) (by decide)
  · exact t

/-! ### Event requests -/

/-- Entries that each keep the reports' control queue, end list and reservation, and the records consistent. -/
theorem EventWork.foldl_kept {α : Type} (f : EventWork → α → EventWork)
    (h : ∀ w a, (f w a).report.busy = w.report.busy ∧ (w.report.EventsConsistent → (f w a).report.EventsConsistent) ∧
      (w.report.Bounded → (f w a).report.Bounded)) (l : List α) (w : EventWork) :
    (l.foldl f w).report.busy = w.report.busy ∧ (w.report.EventsConsistent → (l.foldl f w).report.EventsConsistent) ∧
      (w.report.Bounded → (l.foldl f w).report.Bounded) := by
  induction l generalizing w with
  | nil => exact ⟨rfl, id, id⟩
  | cons a rest ih =>
    exact ⟨(ih _).1.trans (h w a).1, fun k => (ih _).2.1 ((h w a).2.1 k), fun k => (ih _).2.2 ((h w a).2.2 k)⟩

@[simp] theorem EventWork.finish_busy (w : EventWork) : w.finish.busy = w.report.busy := by
  unfold EventWork.finish
  split <;> simp

@[simp] theorem EventWork.finish_reading (w : EventWork) : w.finish.reading = w.report.reading := by
  unfold EventWork.finish
  split <;> simp

@[simp] theorem EventWork.finish_event (w : EventWork) (k : EventKind) : w.finish.event k = w.report.event k := by
  unfold EventWork.finish
  split <;> simp

theorem EventWork.finish_bounded {w : EventWork} (h : w.report.Bounded) : w.finish.Bounded := by
  unfold EventWork.finish
  split
  · exact Report.wantNotice_bounded h
  · exact h

/-! ### The soft reset (R162, R186) -/

theorem EventRecord.clear_clear (e : EventRecord) : e.clear.clear = e.clear := rfl

/-- Clearing a list of kinds clears each of them and leaves the others. -/
theorem Report.clearEvents_event (l : List EventKind) (r : Report) (k : EventKind) :
    (Report.clearEvents l r).event k = if k ∈ l then (r.event k).clear else r.event k := by
  induction l generalizing r with
  | nil => rfl
  | cons j rest ih =>
    rw [Report.clearEvents, ih, Report.event_putEvent]
    by_cases e : k = j
    · subst e
      simp [EventRecord.clear_clear]
    · simp [e]

theorem EventKind.mem_all (k : EventKind) : k ∈ EventKind.all := by cases k <;> decide

@[simp] theorem Report.softReset_control (r : Report) : r.softReset.control = r.control := by simp only [Report.softReset]
@[simp] theorem Report.softReset_busy (r : Report) : r.softReset.busy = r.busy := by simp only [Report.softReset]
@[simp] theorem Report.softReset_reading (r : Report) : r.softReset.reading = r.reading := by simp only [Report.softReset]
@[simp] theorem Report.softReset_endList (r : Report) : r.softReset.endList = [] := by simp only [Report.softReset]
@[simp] theorem Report.softReset_noticeHeld (r : Report) : r.softReset.noticeHeld = false := by simp only [Report.softReset]

/-- R186: a soft reset clears every event and keeps its mask. -/
@[simp] theorem Report.softReset_event (r : Report) (k : EventKind) : r.softReset.event k = (r.event k).clear := by
  have cleared := Report.clearEvents_event EventKind.all r k
  rw [if_pos (EventKind.mem_all k)] at cleared
  rw [← cleared]
  simp only [Report.event, Report.softReset]

@[simp] theorem State.softReset_report (s : State) : s.softReset.report = s.report.softReset := rfl
@[simp] theorem State.softReset_port (s : State) : s.softReset.port = s.port.softReset := rfl
@[simp] theorem State.softReset_voices (s : State) : s.softReset.voices = [] := rfl
@[simp] theorem State.softReset_nextOrder (s : State) : s.softReset.nextOrder = 0 := rfl
@[simp] theorem State.softReset_cadence (s : State) : s.softReset.cadence = s.cadence.resetTracker := rfl
@[simp] theorem State.softReset_config (s : State) : s.softReset.config = s.config := rfl
@[simp] theorem State.softReset_pass (s : State) : s.softReset.pass = s.pass := rfl
@[simp] theorem State.softReset_headStore (s : State) : s.softReset.headStore = s.headStore := rfl
@[simp] theorem State.softReset_ringStore (s : State) : s.softReset.ringStore = s.ringStore := rfl
@[simp] theorem State.softReset_articulation (s : State) (i : Nat) : s.softReset.articulation i = s.articulation i := rfl
@[simp] theorem State.softReset_zone (s : State) (i : Nat) : s.softReset.zone i = s.zone i := rfl
@[simp] theorem State.softReset_curve (s : State) (i : Nat) : s.softReset.curve i = s.curve i := rfl

theorem State.softReset_keeps (s : State) : s.Keeps s.softReset where
  memory := id
  port := fun h => ⟨Nat.zero_le _, Nat.zero_le _, h.2.2.1, Nat.zero_le _, h.2.2.2.2⟩
  cursors := id
  tags := fun _ => ⟨List.Pairwise.nil, fun _ _ _ _ hv => absurd hv (by simp [State.voice?])⟩

end Sys2Proof.Machine
end

