-- ==== Sys2Proof/Laws/Status.lean ====
section
/-! SUPPORT. The reading of a QUERY_STATUS: what one reading does to the reports, that it changes nothing else, and that
the tracker opens a pass or not whatever the reports hold, so that a reading cut short before a pass does not decide
whether the pass is opened. -/

namespace Sys2Proof.Machine

/-! ### One reading (R172) -/

/-- R172: parts are left after a reading: what has been told has grown by those read. -/
theorem State.readOn_more (s : State) (r : Request) (g : StatusReading) (n : Nat) (h : n < g.left.length) :
    s.readOn r g n = s.setReport { s.report with
      reading := some { told := g.told ++ (g.left.take n).flatMap s.statusPart, left := g.left.drop n } } := by
  unfold State.readOn
  split
  · rename_i e
    exact absurd (List.drop_eq_nil_iff.1 e) (by omega)
  · rename_i e
    rw [← e]

/-- R165, R172: no part is left after a reading: the REPLY is filled, and the unit is IDLE. -/
theorem State.readOn_last (s : State) (r : Request) (g : StatusReading) (n : Nat) (h : g.left.length ≤ n) :
    s.readOn r g n = (s.setReport { s.report with reading := none }).reply r
      (okWith (g.told ++ g.left.flatMap s.statusPart)) := by
  unfold State.readOn
  rw [List.drop_eq_nil_iff.2 h, List.take_of_length_le h]

/-- A reading changes the reports only: the REPLY, the unit and how far the reading is. -/
theorem State.readOn_cases (s : State) (r : Request) (g : StatusReading) (n : Nat) :
    (∃ more, more.left ≠ [] ∧ more.left <:+ g.left ∧ s.readOn r g n = s.setReport { s.report with reading := some more }) ∨
      ∃ told, s.readOn r g n = s.setReport
        { s.report with control := s.report.control ++ [.reply r.source r.number r.kind (okWith told)], busy := none,
                        reading := none } := by
  rcases Nat.lt_or_ge n g.left.length with h | h
  · refine .inl ⟨_, ?_, ?_, s.readOn_more r g n h⟩
    · simpa using h
    · exact List.drop_suffix _ _
  · exact .inr ⟨_, s.readOn_last r g n h⟩

theorem State.readOn_changes (s : State) (r : Request) (g : StatusReading) (n : Nat) :
    s.ChangesOnly (s.readOn r g n) [.report] := by
  rcases s.readOn_cases r g n with ⟨_, -, -, e⟩ | ⟨_, e⟩ <;> rw [e] <;> exact s.setReport_changes _

theorem State.readOn_keeps (s : State) (r : Request) (g : StatusReading) (n : Nat) : s.Keeps (s.readOn r g n) := by
  rcases s.readOn_cases r g n with ⟨_, -, -, e⟩ | ⟨_, e⟩ <;> rw [e] <;> exact ⟨id, id, id, id⟩

@[simp] theorem State.readOn_event (s : State) (r : Request) (g : StatusReading) (n : Nat) (k : EventKind) :
    (s.readOn r g n).report.event k = s.report.event k := by
  rcases s.readOn_cases r g n with ⟨_, -, -, e⟩ | ⟨_, e⟩ <;> rw [e] <;> rfl

@[simp] theorem State.readOn_endList (s : State) (r : Request) (g : StatusReading) (n : Nat) :
    (s.readOn r g n).report.endList = s.report.endList := by
  rcases s.readOn_cases r g n with ⟨_, -, -, e⟩ | ⟨_, e⟩ <;> rw [e] <;> rfl

/-- R155: the REPLY takes the place that the unit holds reserved. -/
theorem State.readOn_bounded {s : State} {r : Request} (busy : s.report.busy = some r) (g : StatusReading) (n : Nat)
    (h : s.report.Bounded) : (s.readOn r g n).report.Bounded := by
  have places := h.1
  rw [busy] at places
  rcases s.readOn_cases r g n with ⟨_, -, -, e⟩ | ⟨_, e⟩ <;> rw [e]
  · exact h
  · refine ⟨?_, h.2⟩
    simpa using places

/-! ### The fields that are left -/

/-- R172: a QUERY_STATUS is being read exactly while the unit is BUSY and has parts recorded. -/
theorem Report.reading?_some {r : Report} {q : Request} {g : StatusReading} :
    r.reading? = some (q, g) ↔ r.busy = some q ∧ r.reading = some g := by
  unfold Report.reading?
  split <;> simp_all

theorem Report.reading?_none {r : Report} : r.reading? = none ↔ r.busy = none ∨ r.reading = none := by
  unfold Report.reading?
  split
  · simp_all
  · rename_i h
    refine iff_of_true rfl ?_
    by_contra c
    push Not at c
    obtain ⟨q, hq⟩ := Option.ne_none_iff_exists'.1 c.1
    obtain ⟨g, hg⟩ := Option.ne_none_iff_exists'.1 c.2
    exact h q g hq hg

theorem State.readOut_none {s : State} (h : s.report.reading? = none) : s.readOut = s := by
  rw [State.readOut, h]

theorem State.readOut_some {s : State} {r : Request} {g : StatusReading} (h : s.report.reading? = some (r, g)) :
    s.readOut = s.readOn r g g.left.length := by
  rw [State.readOut, h]

theorem State.readOut_changes (s : State) : s.ChangesOnly s.readOut [.report] := by
  unfold State.readOut
  split
  · exact .refl _ _
  · exact s.readOn_changes _ _ _

/-- With no QUERY_STATUS being read, nothing comes before what opens a pass. -/
theorem State.readBefore_none {s : State} (h : s.report.reading? = none) (take : State → State) :
    s.readBefore take = take s := by
  rw [State.readBefore, State.readOut_none h, ite_self]

/-! ### The tracker does not read the reports -/

/-- Two states that the tracker cannot tell apart: the same tracker, the same parameters, a pass in both or in neither. -/
structure State.SameTracker (s t : State) : Prop where
  cadence : t.cadence = s.cadence
  config  : t.config = s.config
  pass    : t.pass.isSome = s.pass.isSome

namespace State.SameTracker

variable {s t u v : State}

theorem only {ps : List Part} (h : s.SameTracker t) (a : s.ChangesOnly u ps) (b : t.ChangesOnly v ps)
    (c : Part.cadence ∉ ps) (d : Part.config ∉ ps) (e : Part.pass ∉ ps) : u.SameTracker v :=
  ⟨by rw [a.cadence c, b.cadence c, h.cadence], by rw [a.config d, b.config d, h.config],
    by rw [a.pass e, b.pass e, h.pass]⟩

theorem setCadence (h : s.SameTracker t) (x : Cadence) : (s.setCadence x).SameTracker (t.setCadence x) :=
  ⟨rfl, h.config, h.pass⟩

theorem raise (h : s.SameTracker t) (c d : Capture) : (s.raise c).SameTracker (t.raise d) :=
  h.only (s.raise_goes c).only (t.raise_goes d).only (by decide) (by decide) (by decide)

theorem trackerConfig (h : s.SameTracker t) : t.trackerConfig = s.trackerConfig := by
  rw [State.trackerConfig, State.trackerConfig, h.cadence, h.config]

theorem openPass (h : s.SameTracker t) (q r : PeriodIndex) (w : Nat) : (s.openPass q w).SameTracker (t.openPass r w) := by
  refine ⟨?_, h.config, rfl⟩
  simp only [State.openPass, State.setPass_cadence, State.setCadence_cadence, h.cadence, h.trackerConfig]

theorem endAllVoices (h : s.SameTracker t) : s.endAllVoices.SameTracker t.endAllVoices :=
  h.only s.endAllVoices_goes.only t.endAllVoices_goes.only (by decide) (by decide) (by decide)

theorem judgeAllLate (h : s.SameTracker t) (q : PeriodIndex) : (s.judgeAllLate q).SameTracker (t.judgeAllLate q) :=
  h.only (s.judgeAllLate_goes q).only (t.judgeAllLate_goes q).only (by decide) (by decide) (by decide)

theorem tickError (h : s.SameTracker t) : s.tickError.SameTracker t.tickError := by
  unfold State.tickError
  simp only [h.cadence, h.trackerConfig]
  split
  · exact h.setCadence _
  · split
    · exact (h.setCadence _).raise _ _
    · exact h.setCadence _

theorem lock (h : s.SameTracker t) (n : PeriodIndex) : (s.lock n).SameTracker (t.lock n) := by
  have locked : s.enterLocked.SameTracker t.enterLocked := by
    unfold State.enterLocked State.raiseCadence
    rw [h.cadence]
    exact (h.setCadence _).raise _ _
  unfold State.lock
  simp only [h.cadence, h.trackerConfig]
  split
  · unfold State.firstLock
    simp only [locked.cadence, locked.trackerConfig]
    exact ((locked.setCadence _).judgeAllLate _).openPass _ _ _
  · split
    · exact locked.openPass _ _ _
    · unfold State.shiftLock
      have shifted := (locked.raise
        (.cadenceShift (expectedIndex ‹_› s.enterLocked.trackerConfig.lead) n)
        (.cadenceShift (expectedIndex ‹_› s.enterLocked.trackerConfig.lead) n)).endAllVoices
      simp only [shifted.cadence, locked.trackerConfig]
      exact (shifted.setCadence _).openPass _ _ _

theorem expectedTick (h : s.SameTracker t) (q : PeriodIndex) (a : Nat) :
    (s.expectedTick q a).SameTracker (t.expectedTick q a) := by
  have returned : ∀ {x y : State}, x.SameTracker y → x.returnToLocked.SameTracker y.returnToLocked := by
    intro x y k
    unfold State.returnToLocked State.raiseCadence
    rw [k.cadence]
    split
    · exact (k.setCadence _).raise _ _
    · exact k.setCadence _
  unfold State.expectedTick
  simp only [h.cadence, h.trackerConfig]
  split
  · exact (returned h).openPass _ _ _
  · exact (returned h.tickError).openPass _ _ _

theorem judgeRunning (h : s.SameTracker t) (n : PeriodIndex) (a : Nat) :
    (s.judgeRunning n a).SameTracker (t.judgeRunning n a) := by
  unfold State.judgeRunning
  simp only [h.cadence, h.trackerConfig]
  split
  · exact h
  · split
    · exact h.expectedTick _ _
    · unfold State.otherTick
      split
      · exact h.tickError
      · split
        · exact h.tickError
        · exact h

theorem judgeCandidate (h : s.SameTracker t) (n : PeriodIndex) (a : Nat) :
    (s.judgeCandidate n a).SameTracker (t.judgeCandidate n a) := by
  unfold State.judgeCandidate
  simp only [h.cadence, h.trackerConfig]
  split
  · exact h.setCadence _
  · split
    · exact h.lock n
    · exact h.setCadence _

theorem judgeTick (h : s.SameTracker t) (n : PeriodIndex) (a : Nat) :
    (s.judgeTick n a).SameTracker (t.judgeTick n a) := by
  have set := h.setCadence { s.cadence with lastTick := some n }
  unfold State.judgeTick
  simp only [h.cadence]
  split
  · exact (set.setCadence _).raise _ _
  · exact (set.setCadence _).raise _ _
  · exact set.judgeCandidate n a
  · exact set.judgeRunning n a
  · exact set.judgeRunning n a

theorem judgeExpiry (h : s.SameTracker t) : s.judgeExpiry.SameTracker t.judgeExpiry := by
  have covered : ∀ q, (s.coverMissed q).SameTracker (t.coverMissed q) := by
    intro q
    have counted := (h.setCadence { s.cadence with missed := s.cadence.missed + 1 }).tickError
    unfold State.coverMissed State.raiseCadence
    simp only [h.cadence, h.trackerConfig, counted.cadence]
    split
    · exact ((counted.setCadence _).raise _ _).openPass _ _ _
    · exact counted.openPass _ _ _
  have lost : s.enterLost.SameTracker t.enterLost := by
    unfold State.enterLost State.raiseCadence
    simp only [h.cadence, h.trackerConfig]
    split
    · exact (h.setCadence _).raise _ _
    · exact ((h.setCadence _).raise _ _).endAllVoices
  unfold State.judgeExpiry
  simp only [h.cadence, h.trackerConfig]
  split
  · split
    · exact covered _
    · exact lost
  · split
    · exact covered _
    · exact lost
  · exact h

end State.SameTracker

/-- R172: the fields still to be read are read without a change that the tracker could tell. -/
theorem State.readOut_sameTracker (s : State) : s.SameTracker s.readOut :=
  have h := s.readOut_changes
  ⟨h.cadence (by decide), h.config (by decide), by rw [h.pass (by decide)]⟩

/-! ### A pass under way while it is rendered -/

theorem State.countDropped_passUnderWay (s : State) : s.countDropped.passUnderWay = s.passUnderWay := by
  unfold State.countDropped State.passUnderWay
  split <;> simp_all

theorem State.offer_passUnderWay (s : State) (q : PeriodIndex) (b : Block) :
    (s.offer q b).passUnderWay = s.passUnderWay := by
  unfold State.offer
  split
  · split
    · rfl
    · exact s.countDropped_passUnderWay
  · rfl

theorem State.passRendered_passUnderWay (s : State) (v : Nat) (x : Voice) :
    (s.passRendered v x).passUnderWay = s.passUnderWay := by
  unfold State.passRendered
  split
  · rfl
  · rename_i k _
    have freed := (s.passChunk_goes v x k).only.pass (by decide)
    dsimp only
    split
    · rw [State.passUnderWay, freed, State.passUnderWay]
    · rename_i h
      rw [State.passUnderWay, State.passUnderWay, ← freed, h]
      rfl

theorem State.settleVoice_passUnderWay (s : State) (v : Nat) (y : Voice) (b : Option BlockEnding) (d : Disposition) :
    (s.settleVoice v y b d).passUnderWay = s.passUnderWay := by
  rw [State.passUnderWay, (s.settleVoice_goes v y b d).only.pass (by decide), State.passUnderWay]

theorem State.renderVoice_passUnderWay (s : State) (q : PeriodIndex) (v : Nat) (x : Voice) (e : SampleEntry) :
    (s.renderVoice q v x e).passUnderWay = s.passUnderWay := by
  have told : ∀ r y, ((s.raiseBlockEvents x q r).passRendered v y).passUnderWay = s.passUnderWay := fun r y => by
    rw [State.passRendered_passUnderWay, State.passUnderWay, (s.raiseBlockEvents_goes x q r).only.pass (by decide),
      State.passUnderWay]
  have put : ∀ (u : State) y, (u.putVoice v y).passUnderWay = u.passUnderWay := fun _ _ => rfl
  unfold State.renderVoice
  simp only [State.settleVoice_passUnderWay, put]
  split
  · rw [State.offer_passUnderWay, told]
  · exact told _ _

theorem State.renderTurn_passUnderWay (s : State) (q : PeriodIndex) (v : Nat) :
    (s.renderTurn q v).passUnderWay = s.passUnderWay := by
  have turned : ∀ u : State, (u.passTurn v).passUnderWay = u.passUnderWay := by
    intro u
    unfold State.passTurn State.passUnderWay
    split <;> simp_all
  rw [State.renderTurn, turned]
  unfold State.renderRecord
  split
  · rfl
  · split
    · rfl
    · split
      · exact s.renderVoice_passUnderWay _ _ _ _
      · rfl

/-- The rendering of the pass that an event opened, and the limit where it opened none, leave it under way, or not. -/
theorem State.afterEvent_passUnderWay (s : State) : s.afterEvent.passUnderWay = s.passUnderWay := by
  unfold State.afterEvent
  split
  · rename_i p _
    have turns : ∀ (l : List Nat) (u : State), (u.renderTurns p.period l).passUnderWay = u.passUnderWay := by
      intro l
      induction l with
      | nil => exact fun _ => rfl
      | cons v rest ih => exact fun u => (ih _).trans (u.renderTurn_passUnderWay _ v)
    rw [State.beginPass, turns]
    rfl
  · rw [State.passUnderWay, s.actOnLimit_goes.only.pass (by decide), State.passUnderWay]

/-- R172: a tick opens a pass or not, whether or not the fields still to be read are read before it. -/
theorem State.readOut_tick_opens (s : State) (n : PeriodIndex) (a : Nat) :
    (s.readOut.judgeTick n a).afterEvent.passUnderWay = (s.judgeTick n a).afterEvent.passUnderWay := by
  rw [State.afterEvent_passUnderWay, State.afterEvent_passUnderWay]
  exact (s.readOut_sameTracker.judgeTick n a).pass

/-- R172: an expiry opens a pass or not, whether or not the fields still to be read are read before it. -/
theorem State.readOut_expiry_opens (s : State) :
    s.readOut.judgeExpiry.afterEvent.passUnderWay = s.judgeExpiry.afterEvent.passUnderWay := by
  rw [State.afterEvent_passUnderWay, State.afterEvent_passUnderWay]
  exact s.readOut_sameTracker.judgeExpiry.pass

end Sys2Proof.Machine
end

