-- ==== Sys2Proof/WellFormed.lean ====
section
/-! DEFINITION. Which commands are well formed: what R87, R148 and R149 say of the things that arrive from outside. -/

namespace Sys2Proof

/-- R148: the part reads the first 12 bytes of the configuration memory. -/
def wellFormedMemory : Option (List Byte) → Bool
  | none => true
  | some bytes => bytes.length == 12

/-- R149: the payload of an Ethernet frame is at least 46 bytes. -/
def wellFormedFrame (frame : Frame) : Bool :=
  46 ≤ frame.payload.length

/-- R87: an OK completion carries 1..16 whole units of 4,096 bytes, an ECC_FAIL completion no data. -/
def wellFormedCompletion : ReadStatus → List Byte → Bool
  | .ok, data => data.length % 4096 == 0 && 1 ≤ data.length / 4096 && data.length / 4096 ≤ 16
  | .eccFail, data => data.isEmpty

/-- The check of each command; the others carry nothing that could be ill formed. -/
def WellFormed : Instr → Bool
  | .powerOn memory _ => wellFormedMemory memory
  | .frameReceived frame => wellFormedFrame frame
  | .readCompletion _ _ status data => wellFormedCompletion status data
  | .voiceStart => true
  | .voiceRelease => true
  | .voiceStop => true
  | .stopAll => true
  | .tick _ => true
  | .localPeriodTimerExpiry => true
  | .passComplete _ => true
  | .readTimeout _ _ => true
  | .staleHoldExpiry _ _ => true
  | .errorWindowEnd _ => true
  | .presenceLost _ => true
  | .presenceReturned _ => true
  | .linkDown => true
  | .linkUp => true
  | .transmitFrame => true
  | .noticeHeldQueued => true
  | .endListFlushOnRoom => true
  | .badRequestReply => true
  | .configure => true
  | .loadSample => true
  | .retireSample => true
  | .querySample => true
  | .loadArticulation => true
  | .loadZones => true
  | .loadCurve => true
  | .loadMatrix => true
  | .queryVoice => true
  | .queryStatus => true
  | .eventMask => true
  | .eventClear => true
  | .eventSet => true
  | .resync => true
  | .reset => true

end Sys2Proof
end

