-- ==== Sys2Proof/Tests/Slice0.lean ====
section
/-! SUPPORT. The model's own tests: the well-formedness checks, the worked examples of the manual, small steps of single
commands, and for each statement with hypotheses states that meet them, clause by clause. The expected values of the
worked examples are the manual's, named in each docstring. -/

namespace Sys2Proof.Tests

open Sys2Proof.Machine

/-! ### Well-formedness: one ill-formed term for each check -/

/-- R148: a configuration memory of eleven bytes. -/
theorem test_wellFormed_memory :
    WellFormed (.powerOn (some (List.replicate 11 0)) ⟨true, true, true, true⟩) = false ∧
      WellFormed (.powerOn (some (List.replicate 12 0)) ⟨true, true, true, true⟩) = true := by decide

/-- R149: a payload of 45 bytes. -/
theorem test_wellFormed_frame :
    WellFormed (.frameReceived ⟨true, 0, 0, 0, List.replicate 45 0⟩) = false ∧
      WellFormed (.frameReceived ⟨true, 0, 0, 0, List.replicate 46 0⟩) = true := by decide

/-- R87: an OK completion without data, and an ECC_FAIL completion with some. -/
theorem test_wellFormed_completion :
    WellFormed (.readCompletion .lane0 0 .ok []) = false ∧ WellFormed (.readCompletion .lane0 0 .eccFail [0]) = false ∧
      WellFormed (.readCompletion .lane0 0 .eccFail []) = true := by decide

/-- The table gives no row any bits, so no word spells a command. -/
theorem test_decode_none : decodeTableWord 8 0 = none ∧ State.reset.withFetchWord 8 0 = State.reset := ⟨rfl, rfl⟩

/-! ### The states that the tests start from -/

/-- The state that a command leaves. -/
def after (c : Instr) (s : State) : State :=
  match exec c s with
  | .next t => t
  | .fault _ => State.reset
  | .refused _ => State.reset

/-- The driver's station address. -/
def driver : StationAddress := 0x020000000001

/-- A request of the driver. -/
def request (kind : Nat) (body : List Byte) : Request := ⟨driver, 7, kind, .unmarked, body⟩

/-- The state with one request waiting. -/
def asked (r : Request) (s : State) : State := { s with port := { s.port with mgmtQueue := [r] } }

/-- The state with one voice item waiting. -/
def given (i : VoiceItem) (s : State) : State := { s with port := { s.port with voiceQueue := [i] } }

/-- The state with one tick handed on. -/
def ticked (n : PeriodIndex) (arrival : Nat) (s : State) : State :=
  { s with port := { s.port with handed := [⟨n, arrival⟩] } }

/-- A pass under way with nothing dropped or passed, its next turn that of the record `next`. -/
def passOf (period : PeriodIndex) (next : Nat) : Pass := ⟨period, 0, [], next⟩

/-- A frame from the driver to the part, padded. -/
def frame (payload : List Byte) : Frame := ⟨true, 0x02CE42800000, driver, 0x88B5, payload ++ List.replicate 46 0⟩

/-- The part with the driver as its partner. -/
def session : State := { State.reset with port := { Port.initial with partner := some driver } }

/-- A READY two-channel S16 sample of 50,000 frames with a head of 8,192. -/
def sample : SampleEntry :=
  { state := .ready, lane := .lane0, baseUnit := 1000, frames := 50000, channels := 2, format := .s16, order := .le,
    stride := 4, headFrames := 8192, pageBase := 0, pageCount := 1, loop := none, check := none, refCount := 1,
    progress := 8, fault := none }

/-- The voice of the manual's release example: P = 256, s = 1,003, o = 100, at the render horizon 1,012. -/
def voice : Voice :=
  { state := .playing, tag := 0x500, startOrder := 0, handle := 0, zone := 0, matrix := 0, gain := 32768,
    releaseLength := 4800, startPeriod := 1003, offset := 100, sourceOffset := 0, loopInEffect := false,
    headChunks := 8, emit := 2204, releasePoint := none, ramp := none, quietCount := 0, quiet := .audible,
    dropouts := 0, clips := 0, late := false }

/-- The tracker LOCKED at the render horizon 1,012, its last pass opened at 10,000. -/
def locked : Cadence :=
  { Cadence.initial with state := .locked, lastTick := some 1007, horizon := some 1012, lastOpening := 10000,
                         timer := some 10288, errorOpenings := 1, severeOpenings := 1, clock := 10000 }

/-- One articulation of one zone on the sample, and one voice that plays it. -/
def stage : State :=
  { session with
    library := { State.reset.library with
                 samples := [(0, sample)]
                 articulations := [(0, { Articulation.initial with zoneCount := 1, releaseLength := 4800 })]
                 zones := [(0, ⟨0, 127, 1, 127, 0, 0, 0, 0, 32768⟩)] }
    voices := [(0, voice)], nextOrder := 1, cadence := locked }

/-- The state with a QUERY_STATUS being read, these parts left. -/
def beingRead (left : List StatusPart) (s : State) : State :=
  { s with report := { s.report with busy := some (request 0x2C []), reading := some ⟨[], left⟩ } }

/-- The stage with its voice changed. -/
def playing (x : Voice) : State := { stage with voices := [(0, x)] }

/-- A table of one record holds that record alone. -/
theorem get?_single {α : Type} {a b : α} {i k : Nat} (h : Table.get? [(i, a)] k = some b) : i = k ∧ a = b := by
  unfold Table.get? at h
  split at h
  · exact ⟨‹_›, Option.some.inj h⟩
  · cases h

/-- A table of two records holds those two. -/
theorem get?_pair {α : Type} {a b c : α} {i j k : Nat} (h : Table.get? [(i, a), (j, b)] k = some c) :
    (i = k ∧ a = c) ∨ (j = k ∧ b = c) := by
  unfold Table.get? at h
  split at h
  · exact .inl ⟨‹_›, Option.some.inj h⟩
  · exact .inr (get?_single h)

/-- R39 holds of one voice. -/
theorem playing_tags (x : Voice) (s : State) (h : s.voices = [(0, x)]) : s.TagsDistinct := by
  unfold State.TagsDistinct State.voice?
  rw [h]
  refine ⟨by simp [Table.Rising], fun v w y z hv hw _ => ?_⟩
  exact (get?_single hv).1.symm.trans (get?_single hw).1

/-! ### Worked examples of the manual -/

/-- R15: the check value of the CRC-32 that R15 spells, over "123456789". -/
theorem test_crc : crc32 [0x31, 0x32, 0x33, 0x34, 0x35, 0x36, 0x37, 0x38, 0x39] = 0xCBF43926 := by decide +kernel

/-- Chapter 1, clamping and the page run: H = 49,152 and 9 pages. -/
theorem test_clamping : clampHead 50000 60000 = 49152 ∧ headPages 49152 12 = 9 := by decide

/-- Chapter 1, clamping and the page run: the run from 1,200 meets handle 17's, the run from 1,201 handle 903's. -/
theorem test_page_run :
    let run (base count : Nat) : SampleEntry := { sample with pageBase := base, pageCount := count }
    let s := State.reset.setSamples [(17, run 1190 11), (903, run 1209 4)]
    s.overlapping? 1200 9 = some 17 ∧ s.overlapping? 1201 9 = some 903 ∧
      (State.reset.setSamples [(17, run 1190 11)]).overlapping? 1201 9 = none := by decide

/-- Chapter 1, priming with a retried segment: the addresses, and the progress of 32 after step 5. -/
theorem test_priming :
    let e := { sample with baseUnit := 1000000, stride := 12, headFrames := 49152, pageBase := 1201, pageCount := 9 }
    let d : Segment := ⟨.done, false⟩
    let o : Segment := ⟨.outstanding, false⟩
    let u : Segment := ⟨.unread, false⟩
    headUnits e = 144 ∧ segmentCount e = 9 ∧ segmentAddress e 3 = 1000048 ∧ segmentUnitCount e 8 = 16 ∧
      primingProgress e [⟨.outstanding, true⟩, d, d, o, o, u, u, u, u] = 32 ∧
      primingProgress e (List.replicate 9 d) = 144 := by decide

/-- Chapter 2, round robin in a run of six zones: what starts 1 to 5 find. -/
theorem test_round_robin :
    let zone (low high vlow vhigh slot handle : Nat) : Zone := ⟨low, high, vlow, vhigh, slot, handle, 4, 12, 32768⟩
    let at0 (cursor : Nat) : State :=
      { State.reset with
        library := { State.reset.library with
                     articulations := [(310, ⟨8000, 6, 3, cursor, 64⟩)]
                     zones := [(8000, zone 55 67 1 80 0 2210), (8001, zone 55 67 1 80 1 2211),
                               (8002, zone 55 67 1 80 2 2212), (8003, zone 55 67 81 127 0 2220),
                               (8004, zone 55 67 81 127 1 2221), (8005, zone 68 79 1 127 0 2230)] } }
    (at0 0).chooseZone? 310 60 64 = some 8000 ∧ (at0 1).chooseZone? 310 60 100 = some 8004 ∧
      (at0 2).chooseZone? 310 60 100 = some 8003 ∧ (at0 0).chooseZone? 310 72 (clampVelocity 0) = some 8005 ∧
      (at0 0).chooseZone? 310 90 50 = none ∧ (Articulation.advance ⟨8000, 6, 3, 2, 64⟩).cursor = 0 := by decide

/-- Chapter 2, curve gain and voice gain. -/
theorem test_curve_gain :
    let curve4 : Curve := ⟨⟨1, 1638⟩, ⟨32, 8192⟩, ⟨64, 16384⟩, ⟨96, 26214⟩, ⟨112, 30000⟩, ⟨127, 32768⟩⟩
    let curve9 : Curve := ⟨⟨1, 40000⟩, ⟨20, 30000⟩, ⟨47, 20001⟩, ⟨80, 12000⟩, ⟨100, 9000⟩, ⟨127, 6000⟩⟩
    curve4.gainAt 100 = 27160 ∧ voiceGain 27160 32768 = 27160 ∧ curve4.gainAt 32 = 8192 ∧ curve9.gainAt 24 = 28519 ∧
      voiceGain 28519 40000 = 34813 := by decide

/-- Chapter 3, choosing a victim: record 3. -/
theorem test_victim :
    let row (state : VoiceState) (gain : Nat) (kind : RampKind) (start : Int) (level length : Nat) (emit : Int)
        (order : StartOrder) : Voice :=
      { voice with state := state, gain := gain, ramp := some ⟨kind, start, level, length⟩, emit := emit,
                   startOrder := order }
    (chooseVictim [(0, voice), (1, row .releasing 40000 .release 2000 32768 4800 3200 40),
      (2, row .stopping 60000 .stop 5120 8192 64 5120 43),
      (3, row .releasing 20000 .release 9600 32768 9600 12000 39)]).map (fun r => r.1) = some 3 ∧
    (row .releasing 40000 .release 2000 32768 4800 3200 40).currentGain = 30000 := by decide

/-- Chapter 3, releases on two voices: 6,852 in time, 4,252 late. -/
theorem test_release_positions :
    releasePosition 256 voice 1030 40 = 6852 ∧ horizonPosition 256 voice 1020 = 4252 ∧
      releasePosition 256 { voice with startPeriod := 1024, offset := 0 } 1024 0 = 0 := by decide

/-- Chapter 4, a chunk across the loop end: the parts and the units of chunks 146 and 147. -/
theorem test_loop_parts :
    let e := { sample with baseUnit := 0, frames := 200000, channels := 4, format := .s24, stride := 12,
                           loop := some ⟨100000, 150000⟩ }
    let x := { voice with loopInEffect := true }
    chunkParts x e 146 = [⟨149504, 149999, 0⟩, ⟨100000, 100527, 496⟩] ∧ chunkParts x e 147 = [⟨100528, 101551, 0⟩] ∧
      (chunkParts x e 146).map (fun p => (partAddress e p, partUnitCount e p)) = [(438, 2), (292, 3)] ∧
      chunkSlot x 146 = 2 ∧ headChunkCount e 0 = 8 := by decide +kernel

/-- Chapter 4, deadlines, across the wrap of the period index too. -/
theorem test_deadlines :
    let x := { voice with startPeriod := 1000 }
    let w := { voice with startPeriod := 4294967290, offset := 1000 }
    chunkDeadline 256 x 8 = 1032 ∧ chunkDeadline 256 x 9 = 1036 ∧ chunkDeadline 256 x 15 = 1060 ∧
      chunkDeadline 1024 w 0 = 4294967290 ∧ chunkDeadline 1024 w 1 = 4294967291 := by decide

/-- Chapter 4, one refill cycle: after the pass for 1,052 the slots hold chunks 16 to 20 and 13 to 15. -/
theorem test_refill :
    let full (k : Nat) (d : PeriodIndex) : Slot := ⟨.full, k, d, false, [.filled], 0, none⟩
    let s := { playing { voice with startPeriod := 1000, emit := 13468 } with
               slots := [(5, full 13 1052), (6, full 14 1056), (7, full 15 1060)] }
    let t := s.refillVoice 0
    (List.range 8).map (fun j => (t.slot? 0 j).map fun x => (x.chunk, x.deadline)) =
      [some (16, 1064), some (17, 1068), some (18, 1072), some (19, 1076), some (20, 1080), some (13, 1052),
       some (14, 1056), some (15, 1060)] ∧
    (t.lane .lane0).queue.length = 5 ∧
    ({ s with slots := (4, full 12 1048) :: s.slots,
              voices := [(0, { voice with startPeriod := 1000, emit := 12444 })] }.refillVoice 0).slots.length = 4 := by
  decide

/-- Chapter 4, a steal onto draining slots: the successors, and the order of lane 2's queue once slot 2's read
resolves. -/
theorem test_draining :
    let e := { sample with lane := .lane2 }
    let x := { voice with startPeriod := 2000, offset := 0, headChunks := 3 }
    let draining : Slot := ⟨.draining, 18, 0, false, [.outstanding], 1, none⟩
    let s := { playing x with slots := [(2, draining), (3, draining)],
                              config := { Configuration.initial with period := 512 },
                              library := { State.reset.library with samples := [(0, e)] } }
    let t := s.prefill 0 x e
    let u := t.streamOk 0 2 0 []
    (t.slot? 0 2).map (fun y => y.successor) = some (some 5) ∧
      (t.lane .lane2).queue.map (fun n => n.deadline) = [2006, 2008, 2014, 2016, 2018, 2020] ∧
      (u.lane .lane2).queue.map (fun n => n.deadline) = [2006, 2008, 2010, 2014, 2016, 2018, 2020] := by decide

/-- Chapter 6, a first lock with a replaced candidate: ticks 500, 502 and 503 at 10,000, 10,256 and 10,520. -/
theorem test_first_lock :
    let pending (s : PeriodIndex) : Voice := { voice with state := .pending, startPeriod := s, emit := -100 }
    let s := { playing (pending 505) with
               voices := [(0, pending 505), (1, { pending 520 with tag := 0x501 })], cadence := Cadence.initial,
               port := { session.port with handed := [⟨500, 10000⟩, ⟨502, 10256⟩, ⟨503, 10520⟩] } }
    let c := after (.tick 256) (after (.tick 10000) s)
    let t := c.judgeTick 503 10520
    c.cadence.candidate = some ⟨502, 10256⟩ ∧ t.cadence.state = .locked ∧ t.cadence.horizon = some 507 ∧
      t.cadence.timer = some 10544 ∧ t.pass = some (passOf 507 0) ∧
      (t.voice? 0).map (fun x => (x.startPeriod, x.late)) = some (507, true) ∧
      (t.voice? 1).map (fun x => (x.startPeriod, x.late)) = some (520, false) ∧
      (t.report.event .lateStart).capture = some (.lateStart 0x500 505 507) ∧
      (t.report.event .cadenceState).count = 2 := by decide +kernel

/-- Chapter 6, a late tick, holdover and return: the expiry at 11,318, then tick 506, BEHIND, and tick 507, GOOD. -/
theorem test_holdover :
    let s := { session with
               cadence := { locked with horizon := some 510, lastOpening := 11030, timer := some 11318,
                                        errorOpenings := 3, severeOpenings := 3, clock := 11030 }
               port := { session.port with handed := [⟨506, 11330⟩, ⟨507, 11560⟩] } }
    let t := after .localPeriodTimerExpiry s
    let u := after (.tick 12) { t with pass := none, cadence := { t.cadence with horizon := some 511 } }
    let w := after (.tick 230) u
    after (.tick 300) s = s ∧
      (t.cadence.state = .holdover ∧ t.pass = some (passOf 510 0) ∧ t.cadence.missed = 1 ∧
        t.cadence.timer = some 11574) ∧
      (u.cadence.state = .holdover ∧ u.cadence.errorCount = 2 ∧ u.pass = none ∧
        (u.report.event .cadenceSevere).capture = some (.cadenceSevere 507)) ∧
      (w.cadence.state = .locked ∧ w.cadence.missed = 0 ∧ w.cadence.errorCount = 2 ∧ w.cadence.timer = some 11848 ∧
        w.pass = some (passOf 511 0)) := by decide +kernel

/-- Chapter 6, an index jump with automatic relock on: the shift of 2,007 to 2,509. -/
theorem test_relock_shift :
    let s := { stage with cadence := { locked with state := .candidate, candidate := some ⟨2508, 10768⟩, timer := none,
                                                   horizon := some 2011, clock := 10768 }
                          port := { session.port with handed := [⟨2509, 11024⟩] } }
    let t := after (.tick 256) s
    t.cadence.horizon = some 2513 ∧ t.voices = [] ∧
      (t.report.event .cadenceShift).capture = some (.cadenceShift 2007 2509) ∧
      t.report.endList.map (fun r => r.reason) = [.cadence] := by decide +kernel

/-- Chapter 7, one frame through the four stages. -/
theorem test_four_stages :
    outputFrame ⟨[12288, 0, 8192, 0, 0, 0, 0, 0], [0, 12288, 0, 8192, 0, 0, 0, 0]⟩ [1200000, -400000, 600000, 300000] 27160
      = ⟨994629, -124329, false⟩ := by decide

/-- Chapter 7, a stop replaces a release: the level 24,576 at the stop. -/
theorem test_stop_level :
    ({ voice with state := .releasing, gain := 27160, emit := 11264,
                  ramp := some ⟨.release, 9984, 32768, 5120⟩ }.stopping).ramp = some ⟨.stop, 11264, 24576, 64⟩ := by decide

/-- Chapter 7, a short sample: the last block has 248 valid frames. -/
theorem test_short_sample :
    blockEnding 256 { voice with emit := 1752 } { sample with frames := 2000 } = some ⟨.endOfSample, 248, 2000⟩ := by
  decide

/-- Chapter 7, a tail trimmed and a voice resumed, with Q = 3. -/
theorem test_quiet :
    let a (n : Nat) : Voice := { voice with state := .releasing, quietCount := n }
    let b (n : Nat) (q : QuietState) : Voice := { voice with quietCount := n, quiet := q }
    (suppress 3 (a 2) true).tail = true ∧ suppress 3 (b 2 .audible) true = ⟨true, true, false, 3, .quiet, false⟩ ∧
      suppress 3 (b 3 .quiet) true = ⟨false, false, false, 3, .quiet, false⟩ ∧
      suppress 3 (b 3 .quiet) false = ⟨true, false, true, 0, .audible, false⟩ := by decide

/-- R129: the conversions at their limits. -/
theorem test_conversion :
    convertSample .s16 .le [0x00, 0x80] = -8388608 ∧ convertSample .s24 .be [0xFF, 0xFF, 0xFF] = -1 ∧
      convertSample .s32 .be [0x7F, 0xFF, 0xFF, 0xFF] = 8388607 ∧
      convertSample .s32 .le [0x80, 0xFF, 0xFF, 0xFF] = 0 := by decide

/-- R156: the blocks of a DATA frame for each P. -/
theorem test_blocks_per_frame :
    [64, 128, 256, 512, 1024].map blocksPerFrame = [22, 11, 5, 2, 1] := by decide

/-- Chapter 8, a frame of starts and a tick. -/
theorem test_stream_split :
    let x : VoiceItem := .stop 1
    let s := { session with port := { session.port with voiceQueue := [x, x, x] } }
    let t := [StreamItem.voice x, .voice x, .tick 812, .voice x].foldl State.acceptItem s
    t.port.voiceQueue.length = 6 ∧ t.port.pendingTicks = [⟨812, 5⟩] ∧
      (Port.itemTaken { t.port with pendingTicks := [⟨812, 1⟩] } 40).handed = [⟨812, 40⟩] := by decide

/-- Chapter 10, a notice held: the second of two captures of an event is not kept, and NOTICE B lists three events. -/
theorem test_notice_held :
    let open1 : EventRecord := { EventRecord.initial with masked := false }
    let r : Report := { Report.initial with events := [(1, open1), (2, open1), (11, open1)],
                                            control := List.replicate 15 (.voiceEnd []) }
    let held := (((r.raise (.fetchLost 0xA10 .lane2 51)).raise (.dropout 0xA10 6004 200)).raise (.clip 0xA33 6004)).raise
      (.dropout 0xA17 6005 1024)
    let s := { session with report := { held with control := held.control.tail } }
    held.control.length = 16 ∧ held.noticeHeld = true ∧
      (after .noticeHeldQueued s).report.control.getLast? =
        some (.notice [⟨.dropout, 2, some (.dropout 0xA10 6004 200)⟩, ⟨.fetchLost, 1, some (.fetchLost 0xA10 .lane2 51)⟩,
          ⟨.clip, 1, some (.clip 0xA33 6004)⟩]) := by decide

/-- R163, R170 to R172: the lengths of the results. -/
theorem test_result_lengths :
    (statusParts.flatMap stage.statusPart).length = 66 ∧ (sampleResult 0 (some sample)).length = 51 ∧ (sampleResult 0 none).length = 51 ∧
      (configBytes Configuration.initial).length = 25 := by decide

/-- The length of a field. -/
theorem toBE_length (n v : Nat) : (toBE n v).length = n := by
  induction n generalizing v with
  | zero => rfl
  | succ n ih => simp [toBE, ih]

/-- R171: a slot record takes 19 bytes, an EMPTY one with its free values too. -/
theorem test_slot_result_length (n i : Nat) (slot : Option Slot) : (slotResult n i slot).length = 19 := by
  cases slot <;> simp [slotResult, word32, toBE_length]

/-- R171: QUERY_VOICE answers 221 bytes. -/
theorem test_voice_result_length (s : State) (v : Nat) (x : Voice) : (s.voiceResult v x).length = 221 := by
  unfold State.voiceResult voiceRecordResult
  cases x.ramp <;> simp [List.length_flatMap, test_slot_result_length, ringSlots, word32, toBESigned, toBE_length]

/-! ### Small steps -/

/-- R91, Note: an answer to an earlier read, found by a newer one, is cut to the newer read's units, and what it does
not carry is a free value: the read resolves all the same. -/
theorem test_late_answer :
    let s := { (stage.setLane .lane0 { stage.lane .lane0 with reads := [(3, .busy (.stream 0 0 0) 1008 1 20)] }) with
               slots := [(0, ⟨.lost, 8, 1035, false, [.outstanding], 1, none⟩)] }
    let u := after (.readCompletion .lane0 3 .ok [7]) s
    fitData 0 0 [1, 2] = [] ∧ u.slots = [(0, ⟨.lost, 8, 1035, false, [.failed], 0, none⟩)] ∧
      (u.lane .lane0).reads = [] ∧ u.freeCount = 1 := by decide

/-- R104, R122: what the part does by itself: a frame of the local clock, up to the timer's expiry, and one record's
turn. -/
theorem test_idle :
    stage.idle.cadence.clock = 10001 ∧
      ({ stage with cadence := { locked with clock := 10288 } }).idle.cadence.clock = 10288 ∧
      (ticked 1008 10000 stage).idle = ticked 1008 10000 stage ∧
      ({ stage with pass := some (passOf 1012 1) }).idle.cadence.clock = 10001 ∧
      ({ stage with pass := some (passOf 1012 0) }).turnsLeft (passOf 1012 0) = [0] := by decide

/-- R172: two lanes lose their modules between the two lanes' readings: the lane read before reports nothing of it, the
lane read after does. -/
theorem test_status_turns :
    let s := (beingRead [.lane .lane2, .lane .lane3] stage).idle
    let t := (after (.presenceLost .lane3) (after (.presenceLost .lane2) s)).idle
    s.report.busy = some (request 0x2C []) ∧ s.report.reading = some ⟨[0, 0, 0, 0, 0, 0], [.lane .lane3]⟩ ∧
      t.report.reading = none ∧ t.report.busy = none ∧ t.report.control =
        [.reply driver 7 0x2C ⟨.ok, 0, 0, [0, 0, 0, 0, 0, 0, 2, 0, 0, 0, 0, 0]⟩] := by decide

/-- R148: an identity whose check value holds is adopted, one with a wrong check value is not. -/
theorem test_power_on :
    let identity := toBE 6 0x0A0B0C0D0E0F ++ toBE 2 0x0600
    let good := identity ++ toBE 4 (crc32 identity).toNat
    let present : PerLane Bool := ⟨true, false, true, true⟩
    (after (.powerOn (some good) present) stage).port.station = 0x0A0B0C0D0E0F ∧
      (after (.powerOn (some (identity ++ [0, 0, 0, 0])) present) stage).port.station = 0x02CE42800000 ∧
      (after (.powerOn none present) stage).lanes.lane1.state = .offline := by decide +kernel

/-- Chapter 5, a timeout, its retry and its late completion: times 20 and 26. -/
theorem test_timeout_retry :
    let slot : Slot := ⟨.inFlight, 40, 5210, false, [.outstanding], 1, none⟩
    let s := ({ stage with slots := [(100, slot)] }).setLane .lane1
      { stage.lane .lane1 with reads := [(3, .busy (.stream 12 4 0) 9000 3 20)], errors := 2 }
    let t := after (.readTimeout .lane1 3) s
    let u := after (.readCompletion .lane1 3 .eccFail []) t
    (t.lane .lane1).reads = [(0, .busy (.stream 12 4 0) 9000 3 20), (3, .stale 20)] ∧
      t.slots = [(100, ⟨.inFlight, 40, 5210, true, [.outstanding], 1, none⟩)] ∧ (t.lane .lane1).errors = 3 ∧
      (t.report.event .readError).capture = some (.readError .lane1 9000 .timeout) ∧
      (u.lane .lane1).reads = [(0, .busy (.stream 12 4 0) 9000 3 20)] ∧ (u.lane .lane1).errors = 3 := by decide

/-- Chapter 5, a lane through ERRORED and back: time 950, with the threshold at 4, and the window of time 3,000. -/
theorem test_errored_lane :
    let slot : Slot := ⟨.inFlight, 9, 1040, false, [.outstanding], 1, none⟩
    let s := ({ stage with slots := [(1, slot)], config := { Configuration.initial with laneThreshold := 4 } }).setLane
      .lane3 { stage.lane .lane3 with reads := [(0, .busy (.stream 0 1 0) 1000 1 20)], errors := 4 }
    let t := after (.readCompletion .lane3 0 .eccFail []) s
    (t.lane .lane3).state = .errored ∧ t.slots = [(1, ⟨.lost, 9, 1040, false, [.failed], 0, none⟩)] ∧
      (t.report.event .fetchLost).capture = some (.fetchLost 0x500 .lane3 9) ∧
      ((after (.errorWindowEnd .lane3) (after (.errorWindowEnd .lane3) t)).lane .lane3).state = .ready := by decide

/-- Chapter 9, changing P between cues: STOP_ALL, and CONFIGURE refused while a voice is non-FREE, then accepted. -/
theorem test_change_period :
    let s := { stage with voices := [(3, voice), (9, { voice with state := .pending, tag := 0x501, emit := -100 })] }
    let t := after .stopAll (given .stopAll s)
    let r := request 0x20 (configBytes { Configuration.initial with period := 512, tolerance := 64 })
    let u := after .configure (asked r t)
    let w := after .configure (asked r { t with voices := [] })
    t.voices.map (fun row => (row.1, row.2.state)) = [(3, .stopping)] ∧
      t.report.endList = [⟨0x501, .cancelled, 0, 0, 0⟩] ∧
      u.report.control = [.reply driver 7 0x20 ⟨.voicesActive, 0, 0, []⟩] ∧ w.config.period = 512 ∧
      w.cadence.state = .search ∧ w.cadence.horizon = none := by decide

/-- R95 to R97, R16: RETIRE_SAMPLE of a sample in use, and what QUERY_SAMPLE then reports. -/
theorem test_retire_in_use :
    let t := after .retireSample (asked (request 0x22 (toBE 4 0)) stage)
    let u := after .querySample (asked (request 0x23 (toBE 4 0)) t)
    (t.entry? 0).map (fun e => e.state) = some .retiring ∧
      t.report.control = [.reply driver 7 0x22 ⟨.ok, 0, 0, [4]⟩] ∧ u.report.control.length = 2 := by decide

/-- R185: EVENT_SET of two codes sets their raw flags; the mask of one keeps its NOTICE back. -/
theorem test_event_set :
    let s := { session with report := { Report.initial with events := [(2, { EventRecord.initial with masked := false })] } }
    let t := after .eventSet (asked (request 0x2B [1, 2]) s)
    (t.report.event .dropout).raw = true ∧ t.report.control.map ControlFrame.isNotice = [true, false] ∧
      t.report.noticeEntries = [⟨.fetchLost, 1, none⟩] := by decide

/-! ### For each statement with hypotheses, states that meet them -/

/-- O1: a command waits; on an empty queue, with no QUERY_STATUS being read, a tick waits, no turn is left with the
timer stopped and running, one is. -/
theorem witness_StepTakesFront :
    (∃ (s : State) (c : Instr) (rest : List Instr), s.pending = c :: rest) ∧
    (∃ s : State, s.pending = [] ∧ s.NoneRead ∧ s.port.handed ≠ []) ∧
    (∃ s : State, s.pending = [] ∧ s.NoneRead ∧ s.port.handed = [] ∧ (∀ p ∈ s.pass, ∀ row ∈ s.voices, row.1 < p.next) ∧
      s.cadence.timer = none) ∧
    (∃ s : State, s.pending = [] ∧ s.NoneRead ∧ s.port.handed = [] ∧ (∀ p ∈ s.pass, ∀ row ∈ s.voices, row.1 < p.next) ∧
      s.cadence.timer = some s.cadence.clock) ∧
    ∃ (s : State) (p : Pass), s.pending = [] ∧ s.NoneRead ∧ s.port.handed = [] ∧ s.pass = some p ∧ Table.Rising s.voices ∧
      (s.voice? 0).isSome = true ∧ p.next ≤ 0 ∧ ∀ w, p.next ≤ w → w < 0 → s.voice? w = none :=
  ⟨⟨{ stage with pending := [.linkUp, .reset] }, .linkUp, [.reset], rfl⟩, ⟨ticked 1 0 stage, rfl, .inl rfl, by decide⟩,
    ⟨session, rfl, .inl rfl, rfl, by decide, rfl⟩,
    ⟨{ stage with cadence := { locked with clock := 10288 }, pass := some (passOf 1012 1) }, rfl, .inl rfl, rfl, by decide, rfl⟩,
    ⟨{ stage with pass := some (passOf 1012 0) }, passOf 1012 0, rfl, .inl rfl, rfl, rfl, by decide, rfl, by decide,
      fun _ _ h => absurd h (Nat.not_lt_zero _)⟩⟩

/-- O14: a command that is neither POWER_ON nor CONFIGURE, and CONFIGURE, answer a next state. -/
theorem witness_IdentityKept :
    (∃ (c : Instr) (s t : State), exec c s = .next t ∧ (∀ memory present, c ≠ .powerOn memory present) ∧ c ≠ .configure) ∧
      ∃ (s t : State), exec .configure s = .next t ∧ ∀ memory present, Instr.configure ≠ .powerOn memory present :=
  ⟨⟨.stopAll, given .stopAll stage, _, rfl, nofun, nofun⟩,
    ⟨asked (request 0x20 (configBytes Configuration.initial)) session, _, rfl, nofun⟩⟩

/-- O5 to O13: a state with a voice, a sample, a listed byte, an event, a block, a pass under way, a part being read
and one that waits meets every invariant, and its next step answers. -/
theorem witness_invariants : ∃ s t : State,
    s.MemoryFormed ∧ s.report.EventsConsistent ∧ s.QueuesBounded ∧ s.CursorsBelow ∧ s.TagsDistinct ∧ s.PassHolds ∧
      s.OutputInRange ∧ s.CountsHold ∧ s.FetchSound ∧ s.WindowsHold ∧ s.QueuesPlaced ∧ step s = .next t := by
  refine ⟨{ stage with
            headStore := [(5, 1)], ringStore := [(7, 255)], pending := [.linkUp]
            pass := some (passOf 1012 0)
            slots := [(0, ⟨.inFlight, 8, 1035, false, [.outstanding], 1, none⟩),
                      (1, ⟨.queued, 9, 1039, false, [.waiting], 0, none⟩)]
            lanes := { stage.lanes with
                       lane0 := { Lane.initial true with
                                  reads := [(3, .busy (.stream 0 0 0) 1008 1 20)]
                                  queue := [⟨0, 1, 0, 1039, 1009, 1⟩] } }
            report := { Report.initial with events := [(1, ⟨true, false, true, 2, none⟩)] }
            port := { session.port with
                      dataQueue := [⟨1012, [⟨0x500, ⟨false, false, false, false, false, false, false, false⟩, 256, 0,
                                             [(-8388608, 8388607)]⟩], false⟩] } },
    _, ⟨by decide, by decide⟩, ?_, ?_, ?_, playing_tags voice _ rfl, ?_, ?_, ?_, ?_, ?_, ?_, rfl⟩
  · intro k
    cases k <;> exact ⟨by decide, by decide, by decide⟩
  · exact ⟨⟨by decide, by decide, by decide, by decide, by decide⟩, by decide, by decide⟩
  · intro i
    unfold State.articulation Table.getD
    cases h : Table.get? stage.library.articulations i with
    | none => simp [Articulation.initial]
    | some a =>
      have := (get?_single h).2
      subst this
      simp [Articulation.initial]
  · intro p h
    cases h
    exact ⟨rfl, rfl⟩
  · unfold State.OutputInRange Is24Bit
    decide
  · refine ⟨by decide, by decide, ?_, ?_, ?_⟩
    · intro l h hh
      cases l <;> cases hh
    · intro h e he
      obtain ⟨rfl, rfl⟩ := get?_single (α := SampleEntry) he
      decide
    · intro v x hx
      obtain ⟨-, rfl⟩ := get?_single (α := Voice) hx
      decide
  · refine ⟨by decide, ?_, by decide, by decide, ?_, ?_, ?_⟩
    · intro l
      cases l <;> decide
    · refine fun v j p => ⟨fun h => ?_, fun ⟨hj, x, hx, hm⟩ => ?_⟩
      · obtain ⟨rfl, rfl, rfl⟩ : v = 0 ∧ j = 1 ∧ p = 0 := by
          simpa [stage, session, State.reset, State.partsQueued, State.lane, PerLane.get, Lane.initial] using h
        exact ⟨by decide, _, rfl, rfl⟩
      · obtain ⟨hi, rfl⟩ | ⟨hi, rfl⟩ := get?_pair (α := Slot) hx
        · cases p <;> cases hm
        · obtain ⟨rfl, rfl⟩ : v = 0 ∧ j = 1 := by unfold slotIndex at hi; omega
          cases p with
          | zero => decide
          | succ p => cases hm
    · intro v j p h
      obtain ⟨rfl, rfl, rfl⟩ : v = 0 ∧ j = 0 ∧ p = 0 := by
        simpa [stage, session, State.reset, State.partsRead, State.lane, PerLane.get, Lane.initial] using h
      exact ⟨by decide, _, rfl, rfl⟩
    · intro v j x hj h
      obtain ⟨hi, rfl⟩ | ⟨hi, rfl⟩ := get?_pair (α := Slot) h
      · obtain ⟨rfl, rfl⟩ : v = 0 ∧ j = 0 := by unfold slotIndex at hi; omega
        decide
      · obtain ⟨rfl, rfl⟩ : v = 0 ∧ j = 1 := by unfold slotIndex at hi; omega
        decide
  · refine ⟨by decide, by decide, by decide, ?_⟩
    intro v j slot hj h k hk
    obtain ⟨hi, rfl⟩ | ⟨hi, rfl⟩ := get?_pair (α := Slot) h
    · obtain ⟨rfl, rfl⟩ : v = 0 ∧ j = 0 := by unfold slotIndex at hi; omega
      cases hk
      exact ⟨voice, rfl, by decide, by decide, by decide, by decide⟩
    · obtain ⟨rfl, rfl⟩ : v = 0 ∧ j = 1 := by unfold slotIndex at hi; omega
      cases hk
      exact ⟨voice, rfl, by decide, by decide, by decide, by decide⟩
  · refine ⟨fun l n h => ?_, fun l row h v j p a m ms hr slot hs _ => ?_⟩
    · cases l <;> cases h
      · exact ⟨_, rfl, rfl, voice, sample, ⟨9216, 10239, 0⟩, rfl, rfl, rfl, by decide +kernel, by decide, by decide⟩
      · contradiction
    · cases l <;> cases h
      · cases hr
        cases hs
        exact ⟨voice, sample, ⟨8192, 9215, 0⟩, rfl, rfl, rfl, by decide +kernel, by decide, by decide⟩
      · contradiction

/-- O10: a QUERY_STATUS with its last part to be read, and its step answers. -/
theorem witness_PassHoldsKept : ∃ s t : State, s.report.reading.isSome = true ∧ s.ReadBetween ∧ step s = .next t :=
  ⟨beingRead [.configuration] stage, _, rfl,
    fun g h => by cases h; exact ⟨rfl, by decide, by decide, request 0x2C [], rfl, rfl⟩, rfl⟩

/-- O15: an EtherType at its lower limit, and one below it; memories of 11, 12 and 13 bytes. -/
theorem witness_PowerOn :
    (∃ address etherType check : Nat, address < 2 ^ 48 ∧ etherType < 65536 ∧ check < 2 ^ 32 ∧
      check = (crc32 (toBE 6 address ++ toBE 2 etherType)).toNat ∧ 0x0600 ≤ etherType) ∧
    (∀ bytes ∈ some (List.replicate 11 (0 : Byte)), bytes.length < 12) ∧
    ∃ address etherType check : Nat, address < 2 ^ 48 ∧ etherType < 65536 ∧ check < 2 ^ 32 ∧ ¬0x0600 ≤ etherType :=
  ⟨⟨0xFFFFFFFFFFFF, 0x0600, _, by decide, by decide, BitVec.isLt _, rfl, by decide⟩, by simp,
    ⟨0, 0x05FF, 0xFFFFFFFF, by decide, by decide, by decide, by decide⟩⟩

/-- O16: each reason to drop a frame, the length just above its limit; and a frame of a foreign source. -/
theorem witness_FrameNotTaken :
    (∃ (f : Frame) (s : State), f.checkOk = false ∧ f.destination = s.port.station) ∧
    (∃ f : Frame, f.checkOk = true ∧ f.payload.length = 9001) ∧
    (∃ (f : Frame) (s : State), f.checkOk = true ∧ f.destination ≠ s.port.station) ∧
    (∃ (f : Frame) (s : State), f.destination = s.port.station ∧ f.etherType ≠ s.port.etherType) ∧
    ∃ (f : Frame) (s : State),
      f.checkOk = true ∧ 46 ≤ f.payload.length ∧ f.payload.length ≤ 9000 ∧ f.destination = s.port.station ∧
        f.etherType = s.port.etherType ∧ headerKind f.payload ≠ 0x20 ∧ s.port.partner ≠ some f.source :=
  ⟨⟨{ frame [] with checkOk := false }, session, rfl, rfl⟩,
    ⟨{ frame [] with payload := List.replicate 9001 0 }, rfl, List.length_replicate⟩,
    ⟨{ frame [] with destination := 1 }, session, rfl, by decide⟩,
    ⟨{ frame [] with etherType := 0x8100 }, session, rfl, by decide⟩,
    ⟨frame [], State.reset, rfl, by decide, by decide, rfl, rfl, by decide, by decide⟩⟩

/-- O17: every item type, each field at its highest value; and behind a well-formed item each way to be malformed:
another version, a body longer than the payload, a type on either side of the known ones, a length byte that is not the
layout's, an item broken off by one byte and after its type, an item count one off. -/
theorem witness_StreamCodec :
    (∃ items : List StreamItem,
      (∀ i ∈ items, itemFits i) ∧ (items.flatMap itemBytes).length < 65536 ∧ items.length = 5) ∧
    (let body (p : List Byte) : List Byte := (p.drop 8).take (field p 4 2)
     let stop := itemBytes (.voice .stopAll)
     let p (items : Nat) (rest : List Byte) : List Byte := message 0x10 0 items (stop ++ rest)
     field (2 :: (p 1 []).tail) 0 1 ≠ 1 ∧ (p 1 []).dropLast.length < 8 + field (p 1 []).dropLast 4 2 ∧
       body (p 2 [0, 2]) = stop ++ 0 :: [2] ∧ body (p 2 [6, 6]) = stop ++ 6 :: [6] ∧
       body (p 2 [4, 3]) = stop ++ 4 :: [3] ∧ (4, 2) ∈ [((1 : Nat), 20), (2, 12), (3, 6), (4, 2), (5, 6)] ∧
       body (p 2 [3, 6, 0, 0, 0]) = stop ++ 3 :: [6, 0, 0, 0] ∧ body (p 2 [4]) = stop ++ 4 :: [] ∧
       body (p 2 []) = stop ∧ field (p 2 []) 6 2 = 2 ∧
       [2 :: (p 1 []).tail, (p 1 []).dropLast, p 2 [0, 2], p 2 [6, 6], p 2 [4, 3], p 2 [3, 6, 0, 0, 0], p 2 [4],
         p 2 []].map streamItems = List.replicate 8 none) := by
  refine ⟨⟨[.voice (.start 0xFFFFFFFF 65535 255 255 0xFFFFFFFF 65535 4294967295), .voice (.release 1 2 65535),
    .voice (.stop 3), .voice .stopAll, .tick 4], ?_, by decide, rfl⟩, by decide⟩
  simp [itemFits]

/-- O18: a malformed and a well-formed STREAM frame from the partner. -/
theorem witness_StreamTaken :
    (∃ (f : Frame) (s : State), s.Admits f ∧ headerKind f.payload = 0x10 ∧ streamItems f.payload = none) ∧
    ∃ (f : Frame) (s : State) (items : List StreamItem),
      s.Admits f ∧ headerKind f.payload = 0x10 ∧ streamItems f.payload = some items ∧ items ≠ [] :=
  ⟨⟨frame (message 0x10 0 1 []), session, ⟨rfl, by decide, by decide, rfl, rfl, rfl⟩, by decide, by decide⟩,
    ⟨frame (message 0x10 0 1 (itemBytes (.tick 812))), session, [.tick 812],
      ⟨rfl, by decide, by decide, rfl, rfl, rfl⟩, by decide, by decide, by decide⟩⟩

/-- O19: messages from the partner, and a CONFIGURE from another source, each mark at its boundary: the kinds on either
side of the known ones, version 2, a body one byte longer than the payload holds, each kind of varying length, items on
a kind of fixed length. -/
theorem witness_RequestQueued :
    let made (version kind length items : Nat) (rest : List Byte) : List Byte :=
      toBE 1 version ++ toBE 1 kind ++ toBE 2 7 ++ toBE 2 length ++ toBE 2 items ++ rest
    let zeros (n : Nat) : List Byte := List.replicate n 0
    let f (payload : List Byte) : Frame := ⟨true, 0x02CE42800000, driver, 0x88B5, payload⟩
    session.port.partner = some driver ∧ State.reset.port.partner = none ∧
      (∀ payload ∈ [made 1 0x1F 0 0 (zeros 46), made 1 0x2F 0 0 (zeros 46), made 2 0x22 4 0 (zeros 46),
          made 1 0x22 47 0 (zeros 46), made 1 0x22 4 0 (zeros 46), made 1 0x22 5 0 (zeros 46), made 1 0x22 4 1 (zeros 46),
          made 1 0x20 25 0 (zeros 46), made 1 0x25 17 1 ([0, 0, 0, 1] ++ zeros 42), made 1 0x25 17 1 (zeros 46),
          made 1 0x29 2 1 (zeros 46), made 1 0x2A 1 1 (zeros 46), made 1 0x2B 2 1 (zeros 46)],
        (f payload).checkOk = true ∧ (f payload).destination = session.port.station ∧
          (f payload).etherType = session.port.etherType ∧ 46 ≤ payload.length ∧ payload.length ≤ 9000) ∧
      (after (.frameReceived (f (made 1 0x20 25 0 (zeros 46)))) State.reset).port.mgmtQueue.map (fun r => r.mark) =
        [.unmarked] ∧
      [made 1 0x1F 0 0 (zeros 46), made 2 0x22 4 0 (zeros 46), made 1 0x22 47 0 (zeros 46), made 1 0x22 4 1 (zeros 46),
        made 1 0x25 17 1 ([0, 0, 0, 1] ++ zeros 42), made 1 0x25 17 1 (zeros 46), made 1 0x29 2 1 (zeros 46),
        made 1 0x2B 2 1 (zeros 46)].map headerMark =
        [.badKind, .badKind, .badLength, .badLength, .unmarked, .badLength, .unmarked, .badLength] := by decide +kernel

/-- The link up, with these frames in the two queues. -/
def linked (control : List ControlFrame) (data : List DataFrame) : State :=
  { session with port := { session.port with linkUp := true, dataQueue := data },
                 report := { Report.initial with control := control } }

/-- O20: the link down; a control frame; a closed data frame; an open one; nothing. -/
theorem witness_Transmit :
    (∃ s : State, s.port.linkUp = false) ∧
    (∃ (s : State) (f : ControlFrame) (rest : List ControlFrame), s.port.linkUp = true ∧ s.report.control = f :: rest) ∧
    (∃ (s : State) (f : DataFrame) (rest : List DataFrame),
      s.port.linkUp = true ∧ s.report.control = [] ∧ s.port.dataQueue = f :: rest ∧ f.closed = true) ∧
    ∃ s : State, s.port.linkUp = true ∧ s.report.control = [] ∧ s.port.dataQueue.length = 1 ∧
      ∀ f ∈ s.port.dataQueue.head?, f.closed = false :=
  ⟨⟨session, rfl⟩, ⟨linked [.voiceEnd []] [], _, _, rfl, rfl⟩, ⟨linked [] [⟨5, [], true⟩], _, _, rfl, rfl, rfl, rfl⟩,
    ⟨linked [] [⟨5, [], false⟩], rfl, rfl, rfl, by decide⟩⟩

/-- O20 with 8.10: a REPLY to request 7 and a NOTICE of one LANE_STATE, byte by byte. -/
theorem test_frames_spelled :
    controlSpelled (.reply driver 7 0x22 ⟨.ok, 0, 0, [4]⟩) =
        [1, 0x43, 0, 7, 0, 9, 0, 0, 0, 0x22, 0, 0, 0, 0, 0, 0, 4] ∧
      controlSpelled (.notice [⟨.laneState, 3, some (.laneState .lane2 .ready .offline)⟩]) =
        [1, 0x42, 0, 0, 0, 16, 0, 1, 4, 1, 0, 3, 2, 0, 2, 0, 0, 0, 0, 0, 0, 0, 0, 0] := by decide

/-- The reports with this many frames, end records and a held NOTICE. -/
def reports (control ends : Nat) (held : Bool) : Report :=
  { Report.initial with control := List.replicate control (.voiceEnd []), noticeHeld := held,
                        endList := List.replicate ends ⟨1, .stopped, 0, 0, 0⟩ }

/-- O21: the list at 62, 63 and 256, with a place and with none; the last place free, and none; 64 end records, and 63.
-/
theorem witness_FreedPlace :
    (∃ r : Report, 256 ≤ r.endList.length) ∧
    (∃ r : Report, r.endList.length = 63 ∧ r.control.length + (if r.busy = none then 0 else 1) +
      (if r.noticeHeld = true then 1 else 0) = 15) ∧
    (∃ r : Report, r.endList.length = 62) ∧
    (∃ r : Report, r.endList.length = 63 ∧ 16 ≤ r.control.length + (if r.busy = none then 0 else 1) +
      (if r.noticeHeld = true then 1 else 0)) ∧
    (∃ r : Report, r.noticeHeld = true ∧ r.control.length + (if r.busy = none then 0 else 1) = 15) ∧
    (∃ r : Report, r.noticeHeld = true ∧ 16 ≤ r.control.length + (if r.busy = none then 0 else 1)) ∧
    (∃ r : Report, r.noticeHeld = false) ∧
    (∃ r : Report, r.endList.length = 64 ∧ r.control.length + (if r.busy = none then 0 else 1) +
      (if r.noticeHeld = true then 1 else 0) = 15) ∧
    ∃ r : Report, 64 ≤ r.endList.length ∧ r.control.length + (if r.busy = none then 0 else 1) +
      (if r.noticeHeld = true then 1 else 0) = 16 :=
  ⟨⟨reports 0 256 false, by decide +kernel⟩, ⟨reports 14 63 true, by decide, by decide⟩, ⟨reports 0 62 false, by decide⟩,
    ⟨reports 15 63 true, by decide, by decide⟩, ⟨reports 15 0 true, by decide, by decide⟩,
    ⟨{ reports 15 0 true with busy := some (request 0 []) }, by decide, by decide⟩, ⟨reports 0 0 false, rfl⟩,
    ⟨reports 14 64 true, by decide, by decide⟩, ⟨reports 15 64 true, by decide, by decide⟩⟩

/-- O22: LINK_STATE unmasked with room and without, and a NOTICE not wanted. -/
theorem witness_LinkChanges :
    let told (control : List ControlFrame) : State :=
      { session with report := { Report.initial with events := [(19, { EventRecord.initial with masked := false })],
                                                     control := control } }
    let reply : ControlFrame := .reply driver 1 0x2C okAnswer
    ((told [.voiceEnd []]).report.event .linkState).entersOnOccur = true ∧
      (after .linkDown (told [.voiceEnd []])).report.noticeEntries ≠ [] ∧
      (after .linkDown (told [.voiceEnd []])).report.control.map ControlFrame.isNotice = [true] ∧
      (after .linkDown (told (List.replicate 16 reply))).report.noticeHeld = true ∧
      (after .linkDown { session with report := { Report.initial with noticeHeld := true } }).report.noticeEntries = [] ∧
      (State.reset.report.event .linkState).entersOnOccur = false ∧ State.reset.report.noticeHeld = false ∧
      State.reset.report.control = [] := by decide

/-- O23: a raw flag set, a masked event, and an unmasked one with its flag clear. -/
theorem witness_Occurrence :
    (∃ r : Report, (r.event .clip).raw = true) ∧ (∃ r : Report, (r.event .clip).masked = true) ∧
      ∃ r : Report, (r.event .clip).raw = false ∧ (r.event .clip).masked = false :=
  ⟨⟨{ Report.initial with events := [(11, ⟨true, false, true, 65535, none⟩)] }, by decide⟩, ⟨Report.initial, by decide⟩,
    ⟨{ Report.initial with events := [(11, { EventRecord.initial with masked := false })] }, by decide, by decide⟩⟩

/-- The stage with the last place of the control queue free and 63 end records: the unit takes a request. -/
theorem asked_takes (r : Request) (s : State) (h : s.report = reports 15 63 false) : (asked r s).Takes r [] := by
  refine ⟨rfl, ?_, ?_, ?_, ?_⟩ <;> simp [asked, h, reports, Report.initial, endFrameRecords, controlPlaces]

/-- The stage with the control queue and the end list as full as they may be for the unit to take a request. -/
def brimming : State := { stage with report := reports 15 63 false }

/-- The same with a pass under way. -/
def inPass : State := { brimming with pass := some (passOf 1012 0) }

/-- The same with every voice FREE. -/
def voiceless (s : State) : State := { s with voices := [] }

/-- O24: a pass under way and an empty queue; an item of each kind at the head; a list whose first tick alone is ready;
each mark; each thing that keeps the unit waiting; a request of another kind and of another mark at the head. -/
theorem witness_RequestQueues :
    (∃ s : State, s.pass.isSome = true ∧ s.port.voiceQueue ≠ []) ∧ (∃ s : State, s.port.voiceQueue = []) ∧
    (∀ i, (given i stage).port.voiceQueue = [i]) ∧ commandOf (.stop 1) ≠ commandOf .stopAll ∧
    (∃ (p : Port) (ready later : List PendingTick), p.pendingTicks = ready ++ later ∧ (∀ t ∈ ready, t.ahead ≤ 1) ∧
      (∀ t ∈ later.head?, 1 < t.ahead) ∧ ready ≠ [] ∧ later ≠ []) ∧
    (∀ mark, (asked { request 0x20 [] with mark := mark } brimming).Takes { request 0x20 [] with mark := mark } []) ∧
    session.port.mgmtQueue = [] ∧ ({ Report.initial with busy := some (request 0x20 []) } : Report).busy.isSome = true ∧
    (reports 0 0 true).noticeHeld = true ∧ 64 ≤ (reports 0 64 false).endList.length ∧
    16 ≤ (reports 16 0 false).control.length ∧
    ∃ r : Request, (asked r stage).port.mgmtQueue = [r] ∧ r.mark = .unmarked ∧ r.kind ≠ 0x20 :=
  ⟨⟨{ given .stopAll stage with pass := some (passOf 5 0) }, rfl, by decide⟩, ⟨stage, rfl⟩, fun _ => rfl, by decide,
    ⟨{ Port.initial with pendingTicks := [⟨812, 1⟩, ⟨813, 2⟩] }, [⟨812, 1⟩], [⟨813, 2⟩], rfl, by decide, by decide,
      by decide, by decide⟩,
    fun _ => asked_takes _ _ rfl, rfl, rfl, rfl, by decide, by decide, ⟨request 0x2E [], rfl, rfl, by decide⟩⟩

/-- A START item on the stage's articulation. -/
def start (tag : Tag) (period : PeriodIndex) : VoiceItem := .start tag 0 60 64 period 0 0

/-- O25. -/
theorem witness_StartTagInUse :
    (given (start 0x500 2000) stage).TakesItem (start 0x500 2000) [] ∧
      ∃ v, ((0x500 : Tag), v) ∈ (given (start 0x500 2000) stage).tagMap :=
  ⟨⟨rfl, rfl⟩, 0, by decide⟩

/-- O26: both steps of the match, and no match; the highest articulation index and the one above it. -/
theorem witness_ZoneMatching :
    stage.chooseZone? 0 60 64 = some 0 ∧ stage.chooseZone? 0 60 0 = none ∧ stage.chooseZone? 4095 60 64 = none ∧
      stage.chooseZone? 4096 60 64 = none ∧
      ({ stage with library := { stage.library with zones := [(0, ⟨0, 127, 1, 127, 3, 0, 0, 0, 32768⟩)] } }).chooseZone?
        0 127 127 = some 0 := by decide

/-- The stage with a START of a new tag waiting, and its sample entry and lane changed. -/
def starting (e : Option SampleEntry) (lane : LaneState) : State :=
  (given (start 0x600 2000) { stage with library := { stage.library with
      samples := match e with
                 | none => []
                 | some x => [(0, x)] } }).setLane .lane0 { stage.lane .lane0 with state := lane }

/-- O27: each of the reasons. -/
theorem witness_StartRefused :
    (∀ row ∈ stage.voices, row.2.tag ≠ 0x600) ∧
    (given (.start 0x600 4096 60 64 2000 0 0) stage).chooseZone? 4096 60 (min (max 64 1) 127) = none ∧
    (starting none .ready).entry? 0 = none ∧ (starting none .ready).TakesItem (start 0x600 2000) [] ∧
    (∃ s e, s = starting (some { sample with state := .priming }) .ready ∧ s.entry? 0 = some e ∧ e.state = .priming) ∧
    (∃ s e, s = starting (some { sample with state := .retiring }) .ready ∧ s.entry? 0 = some e ∧ e.state = .retiring) ∧
    (∃ s e, s = starting (some { sample with state := .faulted }) .ready ∧ s.entry? 0 = some e ∧ e.state = .faulted) ∧
    (∃ s e, s = starting (some sample) .offline ∧ s.entry? 0 = some e ∧ e.state = .ready ∧
      (s.lane e.lane).state = .offline) ∧
    ∃ s e, s = { starting (some sample) .errored with config := { Configuration.initial with voiceLimit := 1 } } ∧
      s.entry? 0 = some e ∧ e.state = .ready ∧ (s.lane e.lane).state ≠ .offline ∧
      s.config.voiceLimit ≤ s.voices.length ∧ ∀ row ∈ s.voices, row.2.state = .pending ∨ row.2.state = .playing :=
  ⟨by decide, by decide, by decide, ⟨rfl, rfl⟩, ⟨_, _, rfl, rfl, rfl⟩, ⟨_, _, rfl, rfl, rfl⟩, ⟨_, _, rfl, rfl, rfl⟩,
    ⟨_, _, rfl, rfl, rfl, rfl⟩, ⟨_, _, rfl, rfl, rfl, by decide, by decide, by decide⟩⟩

/-- O28: with the horizon undefined, with a start at the horizon, and with one just before it. -/
theorem witness_StartAccepted :
    let s := starting (some sample) .ready
    s.TakesItem (start 0x600 2000) [] ∧ Table.Rising s.voices ∧ (∀ row ∈ s.voices, row.2.tag ≠ 0x600) ∧
      s.chooseZone? 0 60 (min (max 64 1) 127) = some 0 ∧ s.entry? (s.zone 0).handle = some sample ∧
      sample.state = .ready ∧ (s.lane sample.lane).state ≠ .offline ∧ s.voices.length < s.config.voiceLimit ∧
      Cadence.initial.horizon = none ∧ isBefore 1012 1012 = false ∧ isBefore 1011 1012 = true :=
  ⟨⟨rfl, rfl⟩, by decide, by decide, by decide, rfl, rfl, by decide, by decide, rfl, by decide, by decide⟩

/-- O29: one RELEASING voice with V = 1, the horizon undefined, and the start at it and one period before it. -/
theorem witness_StartSteals :
    let victim := { voice with state := .releasing }
    let s (period : PeriodIndex) (c : Cadence) : State :=
      { given (start 0x600 period) (starting (some sample) .ready) with
        voices := [(0, victim)], cadence := c, config := { Configuration.initial with voiceLimit := 1 } }
    (∀ c ∈ [Cadence.initial, locked], (s 2000 c).TakesItem (start 0x600 2000) [] ∧ Table.Rising (s 2000 c).voices ∧
      (∀ row ∈ (s 2000 c).voices, row.2.tag ≠ 0x600) ∧
      (s 2000 c).chooseZone? 0 60 (min (max 64 1) 127) = some 0 ∧
      (s 2000 c).entry? ((s 2000 c).zone 0).handle = some sample ∧ ((s 2000 c).lane sample.lane).state ≠ .offline ∧
      (s 2000 c).config.voiceLimit ≤ (s 2000 c).voices.length ∧ (s 2000 c).voice? 0 = some victim ∧
      (∀ w x, (s 2000 c).voice? w = some x → w ≠ 0 → (x.state = .releasing ∨ x.state = .stopping) →
        victim.currentGain < x.currentGain ∨
          (victim.currentGain = x.currentGain ∧ isBefore victim.startOrder x.startOrder = true))) ∧
      Cadence.initial.horizon = none ∧ locked.horizon = some 1012 ∧ isBefore 1012 1012 = false ∧
      isBefore 1011 1012 = true :=
  ⟨fun c hc => by
    simp only [List.mem_cons, List.not_mem_nil, or_false] at hc
    rcases hc with rfl | rfl
    all_goals
      exact ⟨⟨rfl, rfl⟩, by decide, by decide, by decide, rfl, by decide, by decide, rfl,
        fun _ _ h n => absurd (get?_single (α := Voice) h).1.symm n⟩, rfl, rfl, by decide, by decide⟩

/-- The voice of the stage, PENDING. -/
def waiting : Voice := { voice with state := .pending, startPeriod := 1024, offset := 0, emit := 0 }

/-- O30: an absent tag, a RELEASING voice, a late release, one in time, and a PENDING voice at position 0 and at 1. -/
theorem witness_Release :
    (∃ s : State, s.TakesItem (.release 0x600 1030 40) [] ∧ s.TagsDistinct ∧ ∀ row ∈ s.voices, row.2.tag ≠ 0x600) ∧
    (∃ s x, s = given (.release 0x500 1030 40) (playing x) ∧ x.state = .releasing ∧ s.TagsDistinct ∧
      s.voice? 0 = some x) ∧
    (∃ s x, s = given (.release 0x500 1011 0) (playing x) ∧ x.state = .playing ∧ s.cadence.horizon = some 1012 ∧
      isBefore 1011 1012 = true) ∧
    (∃ s x, s = given (.release 0x500 1030 40) (playing x) ∧ x.state = .playing ∧
      ∀ q ∈ s.cadence.horizon, isBefore 1030 q = false) ∧
    periodDiff 1024 waiting.startPeriod * 256 + (((min 0 (256 - 1) : Nat) : Int) - waiting.offset) = 0 ∧
    periodDiff 1024 waiting.startPeriod * 256 + (((min 1 (256 - 1) : Nat) : Int) - waiting.offset) = 1 :=
  ⟨⟨given (.release 0x600 1030 40) stage, ⟨rfl, rfl⟩, playing_tags voice _ rfl, by decide⟩,
    ⟨_, { voice with state := .releasing }, rfl, rfl, playing_tags _ _ rfl, rfl⟩,
    ⟨_, voice, rfl, rfl, rfl, by decide⟩, ⟨_, voice, rfl, rfl, fun q h => by cases h; decide⟩, by decide, by decide⟩

/-- O31, O32: an absent tag, and a voice in each of the four states. -/
theorem witness_Stop_StopAll :
    (∃ s : State, s.TakesItem (.stop 0x600) [] ∧ s.TagsDistinct ∧ ∀ row ∈ s.voices, row.2.tag ≠ 0x600) ∧
    (∀ x ∈ [voice, waiting, { voice with state := .releasing }, { voice with state := .stopping }],
      (given (.stop 0x500) (playing x)).TakesItem (.stop 0x500) [] ∧ (given (.stop 0x500) (playing x)).TagsDistinct ∧
        (playing x).voice? 0 = some x) ∧
    ∃ s : State, s.TakesItem .stopAll [] ∧ Table.Rising s.voices ∧ s.voices ≠ [] :=
  ⟨⟨given (.stop 0x600) stage, ⟨rfl, rfl⟩, playing_tags voice _ rfl, by decide⟩,
    fun x _ => ⟨⟨rfl, rfl⟩, playing_tags x _ rfl, rfl⟩, ⟨given .stopAll stage, ⟨rfl, rfl⟩, by decide, by decide⟩⟩

/-- O33: both ends of a segment, where it meets its neighbours. -/
theorem witness_Gains :
    let c : Curve := ⟨⟨1, 40000⟩, ⟨20, 30000⟩, ⟨47, 20001⟩, ⟨80, 12000⟩, ⟨100, 9000⟩, ⟨127, 6000⟩⟩
    curveRises c = true ∧ (c.p0, c.p1) ∈ [(c.p0, c.p1), (c.p1, c.p2), (c.p2, c.p3), (c.p3, c.p4), (c.p4, c.p5)] ∧
      c.p0.velocity ≤ 20 ∧ 20 ≤ c.p1.velocity ∧ c.p1.velocity ≤ 20 ∧ 20 ≤ c.p2.velocity ∧
      c.gainAt 1 = 40000 ∧ c.gainAt 20 = 30000 ∧ c.gainAt 127 = 6000 ∧ voiceGain 65535 65535 = 65535 := by decide

/-- A tick is the next that the tracker takes. -/
theorem ticked_takes (n : PeriodIndex) (arrival : Nat) (s : State) (hp : s.pass = none) (hc : s.cadence.heldConfig = none)
    (hl : s.cadence.limitDue = false) (ht : ∀ expiry ∈ s.cadence.timer, arrival < expiry) :
    (ticked n arrival s).TakesTick n arrival [] :=
  ⟨hp, ⟨rfl, fun e he => .inl (ht e he)⟩, hc, hl⟩

/-- O34: in SEARCH and in LOST. -/
theorem witness_SearchTick :
    (ticked 500 7 session).TakesTick 500 7 [] ∧ session.cadence.state = .search ∧
      (ticked 500 7 { session with cadence := { Cadence.initial with state := .lost } }).TakesTick 500 7 [] :=
  ⟨ticked_takes _ _ _ rfl rfl rfl nofun, rfl, ticked_takes _ _ _ rfl rfl rfl nofun⟩

/-- A tracker in CANDIDATE with 502 at 10,256. -/
def candidate (horizon : Option PeriodIndex) : Cadence :=
  { Cadence.initial with state := .candidate, candidate := some ⟨502, 10256⟩, horizon := horizon, clock := 10256 }

/-- O35: a lock at the end of its window (P + J = 288), and a tick one frame before it (P - J - 1 = 223); a PENDING
voice whose start period is just before the new horizon (503 + 4), and one that starts at it. -/
theorem witness_CandidateTick :
    let pending (p : PeriodIndex) (tag : Tag) : Voice := { voice with state := .pending, startPeriod := p, tag := tag }
    let s := { stage with cadence := candidate none, voices := [(0, pending 506 1), (1, pending 507 2)] }
    (ticked 503 10544 s).TakesTick 503 10544 [] ∧ (ticked 503 10479 s).TakesTick 503 10479 [] ∧
      (ticked 503 10544 s).NoneRead ∧ s.cadence.state = .candidate ∧ s.cadence.candidate = some ⟨502, 10256⟩ ∧ 2 ≤ s.config.errorWindow ∧
      Table.Rising s.voices ∧ (503 : PeriodIndex) = 502 + 1 ∧
      (((10544 : Nat) : Int) - (10256 : Nat) ≤ (s.config.period : Int) + s.config.tolerance) ∧
      ¬((s.config.period : Int) - s.config.tolerance ≤ ((10479 : Nat) : Int) - (10256 : Nat)) ∧
      s.voices.map (fun row => isBefore row.2.startPeriod (503 + BitVec.ofNat 32 s.config.lead)) = [true, false] :=
  ⟨ticked_takes _ _ _ rfl rfl rfl nofun, ticked_takes _ _ _ rfl rfl rfl nofun, .inl rfl, rfl, rfl, by decide, by decide,
    by decide, by decide, by decide, by decide⟩

/-- O36: a relock at the expected index, and at another, at the start of its window (P - J = 224), with a voice to end.
-/
theorem witness_Relock :
    let s (q : PeriodIndex) : State := { stage with cadence := candidate (some q) }
    (∀ q, (ticked 503 10480 (s q)).TakesTick 503 10480 [] ∧ (ticked 503 10480 (s q)).NoneRead) ∧ 503 = 507 - BitVec.ofNat 32 stage.config.lead ∧
      503 ≠ 506 - BitVec.ofNat 32 stage.config.lead ∧
      (stage.config.period : Int) - stage.config.tolerance ≤ ((10480 : Nat) : Int) - (10256 : Nat) ∧
      ((10480 : Nat) : Int) - (10256 : Nat) ≤ (stage.config.period : Int) + stage.config.tolerance ∧
      Table.Rising stage.voices ∧ stage.voices ≠ [] :=
  ⟨fun _ => ⟨ticked_takes _ _ _ rfl rfl rfl nofun, .inl rfl⟩, by decide, by decide, by decide, by decide, by decide,
    by decide⟩

/-- O37: in LOCKED and in HOLDOVER; the expected index in time and early, and an index before and one after it; a
window's last opening and one before it; the M-th error and one before it; automatic relock on and off. -/
theorem witness_RunningTick :
    let expected : PeriodIndex := 1012 - BitVec.ofNat 32 stage.config.lead
    (ticked 1008 10287 stage).TakesTick 1008 10287 [] ∧ (ticked 1007 10223 stage).TakesTick 1007 10223 [] ∧
      (ticked 1008 10287 stage).NoneRead ∧
      stage.cadence.state = .locked ∧ stage.cadence.horizon = some 1012 ∧ stage.cadence.lastOpening = 10000 ∧
      (1008 : PeriodIndex) = expected ∧ isBefore 1007 expected = true ∧ isBefore expected 1009 = true ∧
      ((10287 : Nat) : Int) - (10000 : Nat) ≤ (stage.config.period : Int) + stage.config.tolerance ∧
      ¬(stage.config.period : Int) - stage.config.tolerance ≤ ((10223 : Nat) : Int) - (10000 : Nat) ∧
      ({ locked with errorOpenings := 30 }).errorOpenings + 1 < stage.config.errorWindow ∧
      stage.config.errorWindow ≤ ({ locked with errorOpenings := 31 }).errorOpenings + 1 ∧
      ({ locked with errorCount := 7 }).errorCount + 1 = stage.config.errorLimit ∧
      locked.errorCount + 1 ≠ stage.config.errorLimit ∧ stage.config.autoRelock = true ∧
      ({ stage.config with autoRelock := false }).autoRelock = false ∧
      ({ locked with severeCount := 1 }).severeCount + 1 = 2 ∧ locked.severeRaised = false ∧
      (ticked 1008 10287 { stage with cadence := { locked with state := .holdover } }).TakesTick 1008 10287 [] :=
  ⟨ticked_takes _ _ _ rfl rfl rfl (by decide), ticked_takes _ _ _ rfl rfl rfl (by decide), .inl rfl, rfl, rfl, rfl, by decide,
    by decide, by decide, by decide, by decide, by decide, by decide, by decide, by decide, rfl, rfl, by decide, rfl,
    ticked_takes _ _ _ rfl rfl rfl (by decide)⟩

/-- A pass under way with this many ticks waiting. -/
def crowded (state : CadenceState) (n : Nat) : State :=
  { ticked 1008 10200 stage with pass := some (passOf 1012 1),
                                 cadence := { locked with state := state, waiting := List.replicate n (.tick 1 1) } }

/-- O38: a tick that the timer expires before, by a frame in LOCKED and at the same time in HOLDOVER; and with a pass
under way 15 ticks waiting, 16 in LOCKED, the second error of a severe window among them, 16 in SEARCH. -/
theorem witness_TickWaits :
    (ticked 1008 10289 stage).port.handed = [⟨1008, 10289⟩] ∧ stage.cadence.timer = some 10288 ∧
    ({ locked with state := .holdover, timer := some 10289 }).state = .holdover ∧
    (∀ state n, (crowded state n).pass = some (passOf 1012 1) ∧ (crowded state n).TickNext 1008 10200 []) ∧
      (ticksAlone (crowded .locked 15).cadence.waiting).length < 16 ∧
      16 ≤ (ticksAlone (crowded .locked 16).cadence.waiting).length ∧
      ({ (crowded .locked 16).cadence with severeCount := 1 }).severeCount + 1 = 2 ∧
      (crowded .locked 16).cadence.severeRaised = false ∧
      (crowded .search 16).cadence.state ≠ .locked ∧ (crowded .search 16).cadence.state ≠ .holdover :=
  ⟨rfl, rfl, rfl, fun _ _ => ⟨rfl, rfl, fun _ h => by cases h; exact .inl (by decide)⟩, by decide, by decide, by decide,
    rfl, by decide, by decide⟩

/-- O39: a stopped timer; a tick that came a frame before the expiry, and one that came at it; a pass under way; LOCKED
and HOLDOVER; the last missed tick that is covered and the one that loses, both actions; a window's last opening and
the one before it, of either window; the M-th error, and the second of a severe window. -/
theorem witness_TimerExpiry :
    session.cadence.timer = none ∧ (crowded .locked 0).cadence.timer = some 10288 ∧
    (∃ n ∈ (ticked 1008 10287 stage).port.handed, n.arrival < 10288) ∧
    (∀ n ∈ (ticked 1008 10288 stage).port.handed, 10288 ≤ n.arrival) ∧
    stage.report.busy = none ∧ (stage.pass = none ∧ stage.cadence.timer = some 10288 ∧ stage.cadence.state = .locked ∧
      stage.cadence.horizon = some 1012 ∧ stage.cadence.heldConfig = none ∧ stage.cadence.limitDue = false ∧
      ({ locked with state := .holdover }).state = .holdover) ∧
    (({ stage with cadence := { locked with missed := 18 } }).cadence.missed + 1 < stage.config.missedLimit ∧
      stage.config.missedLimit ≤ ({ stage with cadence := { locked with missed := 19 } }).cadence.missed + 1) ∧
    (({ locked with errorOpenings := 30 }).errorOpenings + 1 < stage.config.errorWindow ∧
      stage.config.errorWindow ≤ ({ locked with errorOpenings := 31 }).errorOpenings + 1 ∧
      ({ locked with severeOpenings := 6 }).severeOpenings + 1 < 8 ∧
      8 ≤ ({ locked with severeOpenings := 7 }).severeOpenings + 1 ∧
      ({ locked with errorCount := 7 }).errorCount + 1 = stage.config.errorLimit ∧
      ({ locked with severeCount := 1 }).severeCount + 1 = 2 ∧ locked.severeRaised = false) ∧
    (stage.config.lostAction = .freeze ∧ ({ stage.config with lostAction := .finish }).lostAction = .finish ∧
      Table.Rising stage.voices ∧ stage.voices ≠ []) := by decide

/-- A pass with every turn had, this much of the reports, waiting list and pass changed. -/
def ending (p : Pass) (busy : Option Request) (waiting : List Waiting) : State :=
  { linked [] [⟨1011, [], true⟩, ⟨1012, [], false⟩] with
    voices := [(0, voice)], pass := some p, report := { Report.initial with busy := busy }
    cadence := { locked with waiting := waiting, timer := none } }

/-- O40: no pass, and a tick still to be taken; a turn left; every turn had, with blocks dropped, with a chunk passed,
with the errors at their limit, with a request and with items waiting, and with none of these; automatic relock on and
off, the marker set and clear; each request that waits, in SEARCH and out of it; a pass under way, and a tick and an
expiry at the head of the list. -/
theorem witness_PassComplete :
    stage.pass = none ∧ (crowded .locked 0).port.handed ≠ [] ∧
    (∃ (s : State) (p : Pass), s.pass = some p ∧ s.port.handed = [] ∧ Table.Rising s.voices ∧
      (s.voice? 0).isSome = true ∧ p.next ≤ 0 ∧ ∀ w, p.next ≤ w → w < 0 → s.voice? w = none) ∧
    (∀ p busy waiting, (ending p busy waiting).pass = some p ∧ (ending p busy waiting).port.handed = [] ∧
      (ending p busy waiting).report.busy = busy ∧ (ending p busy waiting).cadence.waiting = waiting ∧
      (ending p busy waiting).cadence.limitDue = false) ∧
    (∀ row ∈ (ending (passOf 1012 1) none []).voices, row.1 < (passOf 1012 1).next) ∧
    (∃ p : Pass, p.dropped ≠ 0 ∧ p.passed ≠ [] ∧ p.next = 1) ∧ (∃ p : Pass, p.dropped = 0 ∧ p.passed = [] ∧ p.next = 1) ∧
    (let due (relock marked : Bool) : State :=
       { stage with config := { stage.config with autoRelock := relock },
                    cadence := { locked with limitDue := true, misaligned := marked } }
     ∀ relock marked, (due relock marked).cadence.limitDue = true ∧
       ((due relock marked).cadence.heldConfig.getD (due relock marked).config).autoRelock = relock ∧
       (due relock marked).cadence.misaligned = marked) ∧
    (let u (kind : Nat) (c : CadenceState) : State :=
       { stage with report := { Report.initial with busy := some (request kind (toBE 4 0x500)) },
                    cadence := { locked with state := c } }
     ∀ kind c, (u kind c).report.busy = some (request kind (toBE 4 0x500)) ∧ (u kind c).TagsDistinct ∧
       (u kind c).voice? 0 = some voice ∧ (u kind c).cadence.state = c) ∧
    voice.tag = BitVec.ofNat 32 (field (toBE 4 0x500) 0 4) ∧
    (∀ row ∈ stage.voices, row.2.tag ≠ BitVec.ofNat 32 (field (toBE 4 0x501) 0 4)) ∧
    (let u (waiting : List Waiting) : State := { stage with cadence := { locked with waiting := waiting, timer := none } }
     ∀ waiting, (u waiting).cadence.waiting = waiting ∧ (u waiting).pass = none ∧ (u waiting).port.handed = [] ∧
       (u waiting).cadence.timer = none ∧ (u waiting).NoneRead) ∧
    (crowded .locked 1).pass.isSome = true :=
  ⟨rfl, by decide, ⟨{ stage with pass := some (passOf 1012 0) }, passOf 1012 0, rfl, rfl, by decide, rfl, by decide,
    fun _ _ h => absurd h (Nat.not_lt_zero _)⟩, fun _ _ _ => ⟨rfl, rfl, rfl, rfl, rfl⟩, by decide,
    ⟨⟨1012, 1, [0], 1⟩, by decide, by decide, rfl⟩, ⟨passOf 1012 1, rfl, rfl, rfl⟩, fun _ _ => ⟨rfl, rfl, rfl⟩,
    fun _ _ => ⟨rfl, playing_tags voice _ rfl, rfl, rfl⟩, by decide, by decide, fun _ => ⟨rfl, rfl, rfl, rfl, .inl rfl⟩,
    rfl⟩

/-- O41 with R129: a stereo frame as it stands in the head store, S16 in the two byte orders. -/
theorem test_stored_frame :
    storedFrame [(8, 0x34), (9, 0x12), (10, 0xFE), (11, 0xFF)] 8 sample = [1192960, -512] ∧
      storedFrame [(8, 0x12), (9, 0x34), (10, 0xFF), (11, 0xFE)] 8 { sample with order := .be } = [1192960, -512] := by
  decide

/-- A slot in each state, read or waiting on lane 0 but for one that is read on lane 1, and a sample being primed. -/
def fetching : State :=
  { stage with
    slots := [(0, ⟨.inFlight, 8, 1035, false, [.outstanding], 1, none⟩), (1, ⟨.queued, 9, 1039, false, [.waiting], 0, none⟩),
              (2, ⟨.full, 10, 1043, false, [.filled], 0, none⟩), (3, ⟨.draining, 3, 0, false, [.outstanding], 1, none⟩),
              (4, ⟨.lost, 12, 0, true, [.failed], 0, none⟩), (5, ⟨.draining, 5, 0, false, [.outstanding], 1, some 13⟩),
              (6, ⟨.draining, 6, 0, false, [.outstanding], 1, some 14⟩)]
    lanes := { stage.lanes with
               lane0 := { Lane.initial true with
                          reads := [(3, .busy (.stream 0 0 0) 1008 1 20), (4, .busy (.stream 0 3 0) 1003 1 20),
                                    (5, .busy (.stream 0 5 0) 1005 1 20), (6, .busy (.priming 1 0 false) 2000 16 20)]
                          queue := [⟨0, 1, 0, 1039, 1009, 1⟩]
                          primingList := [1], segments := [⟨.outstanding, true⟩, ⟨.done, false⟩], primingOutstanding := 1 }
               lane1 := { Lane.initial true with reads := [(0, .busy (.stream 0 6 0) 1006 1 20)] } } }

/-- O41: a frame before the first; the last frame of a sample and the one past it; of a loop the last frame, the one at
its end and the one at its start a loop later; the last frame of the head and the first of the ring; a ring chunk whose
slot is FULL with it and with another, one whose slot is not FULL, and one whose slot is EMPTY. -/
theorem witness_FrameSources :
    let j (k : Nat) : Nat := (k - voice.headChunks) % 8
    (-1 : Int) < 0 ∧ voice.loopInEffect = false ∧
      voice.sourceOffset + 49999 < sample.frames ∧ sample.frames ≤ voice.sourceOffset + 50000 ∧
      (let l : SampleLoop := ⟨100, 2000⟩
       voice.sourceOffset + 1999 < l.stop ∧ l.stop ≤ voice.sourceOffset + 2000 ∧
         l.start + (voice.sourceOffset + 2000 - l.stop) % (l.stop - l.start) = 100 ∧
         l.start + (voice.sourceOffset + 3900 - l.stop) % (l.stop - l.start) = 100) ∧
      8191 / 1024 < voice.headChunks ∧ voice.headChunks ≤ 8192 / 1024 ∧
      (fetching.slot? 0 (j 10)).map (fun x => (x.state, x.chunk)) = some (.full, 10) ∧
      (fetching.slot? 0 (j 18)).map (fun x => (x.state, x.chunk)) = some (.full, 10) ∧
      (fetching.slot? 0 (j 8)).map (fun x => (x.state, x.chunk)) = some (.inFlight, 8) ∧
      fetching.slot? 0 (j 15) = none := by decide

/-- O42: more coefficients than channels; the frame before a ramp, its last frame and the first after it; samples at
and beyond the limits of 24 bits. -/
theorem witness_Stages :
    let r : Ramp := ⟨.stop, 11264, 24576, 64⟩
    ([5, -7] : List Int).length ≤ Fold.identity.left.length ∧ foldSum [5, -7] [3, 2, 900] = 1 ∧
      11263 < r.start ∧ r.start ≤ 11264 ∧ 0 < r.length ∧ r.levelAt (11264 + 63) = 384 ∧
      r.levelAt (11264 + 64) = 0 ∧ effectiveGain 65535 32768 = 65535 ∧
      outputFrame Fold.identity [8388607, -8388608] 32768 = ⟨8388607, -8388608, false⟩ ∧
      outputFrame Fold.identity [8388607, -8388608] 65535 = ⟨8388607, -8388608, true⟩ := by decide

/-- O43: a release point in the block's first frame and in its last, and one just behind it; the sample end just behind
the block, in its last frame, and with the ramp running out in the frame before it and in the same frame; the ramp just
behind the block; a STOPPING voice. -/
theorem witness_BlockEnds :
    let y (emit : Int) (length : Nat) : Voice :=
      { voice with state := .releasing, emit := emit, ramp := some ⟨.release, 49968, 32768, length⟩ }
    let x (point : Int) : Voice := { voice with releasePoint := some point }
    [2203, 2204, 2267, 2268].map (fun p => (enterBlock 64 (x p) sample).state) =
        [.playing, .releasing, .releasing, .playing] ∧
      loopInForce voice sample = none ∧ blockEnding 64 { voice with emit := 49936 } sample = none ∧
      blockEnding 64 { voice with emit := 49937 } sample = some ⟨.endOfSample, 63, 50000⟩ ∧
      blockEnding 64 (y 49968 32) sample = some ⟨.released, 64, 50032⟩ ∧
      blockEnding 64 (y 49968 33) sample = some ⟨.endOfSample, 32, 50000⟩ ∧
      blockEnding 64 { voice with emit := 2204, ramp := some ⟨.release, 2100, 32768, 169⟩ } sample = none ∧
      blockEnding 64 { voice with emit := 2204, ramp := some ⟨.stop, 2204, 5, 64⟩ } sample = some ⟨.stopped, 64, 2268⟩ := by
  decide

/-- O44: with Q = 0 and with a block that ends its voice; with Q = 2 and F = 3 an AUDIBLE voice, its block above F,
with a silent frame, quiet below the run and at it, RELEASING and not; and a QUIET one. -/
theorem witness_QuietSuppression :
    let c : Configuration := { Configuration.initial with quietRun := 2, quietFloor := 3 }
    let x (n : Nat) (q : QuietState) : Voice := { voice with quietCount := n, quiet := q }
    let r (y : Int) (silent : Nat) : Rendered := ⟨[(-3, y)], silent, false⟩
    let d (v : Voice) (y : Int) (silent : Nat) : Disposition := dispose c v (r y silent) none
    (dispose Configuration.initial (x 1 .audible) (r 0 0) none).count = 1 ∧
      (dispose c (x 1 .audible) (r 0 0) (some ⟨.endOfSample, 9, 50000⟩)).quiet = .audible ∧
      (d (x 1 .audible) 4 0).count = 0 ∧ (d (x 1 .audible) 3 1).count = 0 ∧ (d (x 0 .audible) 3 0).count = 1 ∧
      d (x 1 .audible) 3 0 = ⟨true, true, false, 2, .quiet, false⟩ ∧
      d { x 1 .audible with state := .releasing } 3 0 = ⟨true, false, false, 2, .audible, true⟩ ∧
      d (x 2 .quiet) 4 0 = ⟨true, false, true, 0, .audible, false⟩ ∧
      d { x 2 .quiet with state := .releasing } 3 0 = ⟨true, false, false, 2, .quiet, true⟩ ∧
      d (x 2 .quiet) 3 0 = ⟨false, false, false, 2, .quiet, false⟩ := by decide

/-- O45: a FREE record and a PENDING one of a later period; a block that goes on, one that passes a ring chunk, one
that ends by its sample, one that ends by its quiet tail, and one withheld; the link down; an open data frame, none and
a closed one, with a frame less than the queue holds and with as many. -/
theorem witness_VoiceRendered :
    let c (q : Nat) : Configuration := { Configuration.initial with period := 64, quietRun := q }
    let s (q : Nat) (x : Voice) : State := { playing x with config := c q }
    let d (q : Nat) (x : Voice) : Disposition :=
      dispose (c q) (enterBlock 64 x sample) ((s q x).renderFrames 0 (enterBlock 64 x sample) sample)
        (blockEnding 64 (enterBlock 64 x sample) sample)
    let quiet : Voice := { voice with quiet := .quiet }
    let passing : Voice := { voice with emit := 9152 }
    let frame (closed : Bool) : DataFrame := ⟨1012, [], closed⟩
    stage.voice? 1 = none ∧ (∀ x ∈ (playing waiting).voice? 0, x.state = .pending ∧ x.startPeriod ≠ 1012) ∧
      Table.Rising stage.library.matrices ∧
      (s 0 voice).voice? 0 = some voice ∧ (s 0 voice).entry? voice.handle = some sample ∧ voice.state ≠ .pending ∧
      blockEnding 64 (enterBlock 64 voice sample) sample = none ∧ (d 0 voice).tail = false ∧
      (passing.emit / 1024 < (passing.emit + 64) / 1024 ∧ (passing.headChunks : Int) ≤ (passing.emit + 64) / 1024 - 1) ∧
      (blockEnding 64 (enterBlock 64 { voice with emit := 49999 } sample) sample).isSome = true ∧
      (d 1 { voice with state := .releasing }).tail = true ∧ (d 1 quiet).sent = false ∧ (d 0 voice).sent = true ∧
      ({ voice with state := .pending, startPeriod := 1012 } : Voice).startPeriod = 1012 ∧
      stage.port.linkUp = false ∧ (linked [] []).port.linkUp = true ∧ [frame false].getLast? = some (frame false) ∧
      (∀ f ∈ [frame true].getLast?, f.closed = true) ∧ (∀ f ∈ ([] : List DataFrame).getLast?, f.closed = true) ∧
      (List.replicate 1023 (frame true)).length < 1024 ∧ 1024 ≤ (List.replicate 1024 (frame true)).length := by
  refine ⟨?_, ?_, ?_, ?_, ?_, ?_, ?_, ?_, ?_, ?_, ?_, ?_, ?_, ?_, ?_, ?_, ?_, ?_, ?_, ?_, ?_⟩
  all_goals decide +kernel

/-- A read under number 3 on lane 0, and its slot 1 of record 0, IN_FLIGHT. -/
def reading (owner : ReadOwner) (units : Nat) (slot : Slot) : State :=
  ({ stage with slots := [(1, slot)] }).setLane .lane0
    { stage.lane .lane0 with reads := [(3, .busy owner 1000 units 20)] }

/-- An IN_FLIGHT slot with chunk 9. -/
def flight (retryUsed : Bool) : Slot := ⟨.inFlight, 9, 1039, retryUsed, [.outstanding], 1, none⟩

/-- O46: a part of chunk 9, at its slot and with its units; a LOST slot, and a DRAINING one with its last read, with a
successor and without, and with one read more. -/
theorem witness_StreamReadFills :
    let s (slot : Slot) : State := reading (.stream 0 1 0) 1 slot
    (∀ slot, ((s slot).lane .lane0).state ≠ .offline ∧
      Table.get? ((s slot).lane .lane0).reads 3 = some (.busy (.stream 0 1 0) 1000 1 20) ∧
      (s slot).slot? 0 1 = some slot) ∧
      (List.replicate 4096 (0 : Byte)).length = 1 * 4096 ∧ (flight false).state = .inFlight ∧
      (s (flight false)).voice? 0 = some voice ∧ (s (flight false)).entry? voice.handle = some sample ∧
      (chunkParts voice sample 9)[0]? = some ⟨9216, 10239, 0⟩ ∧
      (∃ x : Slot, x.state = .draining ∧ x.outstanding = 2) ∧
      ∀ k : Option Nat, ∃ x : Slot, x.state = .draining ∧ x.outstanding = 1 ∧ x.successor = k :=
  ⟨fun _ => ⟨nofun, rfl, rfl⟩, List.length_replicate, rfl, rfl, rfl, by decide +kernel,
    ⟨⟨.draining, 9, 0, false, [.outstanding, .outstanding], 2, none⟩, rfl, rfl⟩,
    fun k => ⟨⟨.draining, 9, 0, false, [.outstanding], 1, k⟩, rfl, rfl, rfl⟩⟩

/-- The first segment of a priming sample of two pages, under number 3, and one more sample to prime. -/
def priming (segments : List Segment) : State :=
  ({ stage with library := { stage.library with
                             samples := [(0, { sample with state := .priming, refCount := 0 }),
                                         (1, { sample with state := .priming, refCount := 0, pageBase := 1 })] },
                voices := [] }).setLane .lane0
    { stage.lane .lane0 with reads := [(3, .busy (.priming 0 0 false) 1000 1 20)], primingList := [0],
                             segments := segments, primingOutstanding := 1 }

/-- O47: with another segment to read, and with none, alone in its list and before another sample; a check value that
cannot be the head's; a read to be DISCARDed. -/
theorem witness_PrimingReadFills :
    (∃ s g e, s = priming [⟨.outstanding, false⟩, ⟨.unread, false⟩] ∧
      Table.get? (s.lane .lane0).reads 3 = some (.busy (.priming 0 0 false) 1000 1 20) ∧
      (s.lane .lane0).primingList = [0] ∧ (s.lane .lane0).segments[0]? = some g ∧ g.state = .outstanding ∧
      s.entry? 0 = some e ∧ ∃ x ∈ (s.lane .lane0).segments.set 0 { g with state := .done }, x.state ≠ .done) ∧
    (∃ s g e, s = priming [⟨.outstanding, true⟩] ∧ (s.lane .lane0).segments[0]? = some g ∧ g.state = .outstanding ∧
      s.entry? 0 = some e ∧ (∀ c ∈ e.check, c = 0) ∧
      ∀ x ∈ (s.lane .lane0).segments.set 0 { g with state := .done }, x.state = .done) ∧
    (∃ (s : State) (e : SampleEntry), (s.lane .lane0).primingList = [0, 1] ∧ s.entry? 1 = some e ∧ segmentCount e = 1) ∧
    (∀ c : BitVec 32, ∃ e : SampleEntry, e.check = some (c + 1) ∧ c + 1 ≠ c) ∧
    Table.get? ((reading (.priming 0 0 true) 1 (flight false)).lane .lane0).reads 3 =
      some (.busy (.priming 0 0 true) 1000 1 20) :=
  ⟨⟨_, _, _, rfl, rfl, rfl, rfl, rfl, rfl, ⟨.unread, false⟩, by decide, by decide⟩,
    ⟨_, _, _, rfl, rfl, rfl, rfl, nofun, by decide⟩,
    ⟨(priming []).setLane .lane0 { (priming []).lane .lane0 with primingList := [0, 1] }, _, rfl, rfl, by decide⟩,
    fun c => ⟨{ sample with check := some (c + 1) }, rfl, by simp⟩, rfl⟩

/-- O48: a number that is not BUSY; a slot and a segment with the retry left and with it used, on a lane that has as
many failures as its limit less one, which stays READY, and as its limit, which is ERRORED; a LOST slot, and a DRAINING
one with its last read, with a successor and without, and with one read more; a read to be DISCARDed. -/
theorem witness_ReadTimeout :
    (∀ owner address units timer, Table.get? (stage.lane .lane0).reads 3 ≠ some (.busy owner address units timer)) ∧
    (∀ (used : Bool) (errors : Nat),
      let t := reading (.stream 0 1 0) 1 (flight used)
      let s := t.setLane .lane0 { t.lane .lane0 with errors := errors }
      (s.lane .lane0).state = .ready ∧ Table.get? (s.lane .lane0).reads 3 = some (.busy (.stream 0 1 0) 1000 1 20) ∧
        s.slot? 0 1 = some (flight used) ∧ (flight used).state = .inFlight ∧ (flight used).retryUsed = used ∧
        (s.lane .lane0).errors = errors ∧ s.config.laneThreshold = 64) ∧
    (∀ slot, (reading (.stream 0 1 0) 1 slot).slot? 0 1 = some slot ∧
      Table.get? ((reading (.stream 0 1 0) 1 slot).lane .lane0).reads 3 = some (.busy (.stream 0 1 0) 1000 1 20) ∧
      (reading (.stream 0 1 0) 1 slot).voice? 0 = some voice ∧
      (reading (.stream 0 1 0) 1 slot).entry? voice.handle = some sample) ∧
    (∃ x : Slot, x.state = .lost) ∧ (∃ x : Slot, x.state = .draining ∧ 1 < x.outstanding) ∧
    (∀ k : Option Nat, ∃ x : Slot, x.state = .draining ∧ x.outstanding ≤ 1 ∧ x.successor = k) ∧
    (∀ used : Bool, ∃ g e, (priming [⟨.outstanding, used⟩]).entry? 0 = some e ∧
      ((priming [⟨.outstanding, used⟩]).lane .lane0).segments[0]? = some g ∧ g.state = .outstanding ∧ g.retryUsed = used ∧
      ((priming [⟨.outstanding, used⟩]).lane .lane0).primingList = [0] ∧
      Table.get? ((priming [⟨.outstanding, used⟩]).lane .lane0).reads 3 = some (.busy (.priming 0 0 false) 1000 1 20)) ∧
    Table.get? ((reading (.priming 0 0 true) 1 (flight false)).lane .lane0).reads 3 =
      some (.busy (.priming 0 0 true) 1000 1 20) :=
  ⟨nofun, fun _ _ => ⟨rfl, rfl, rfl, rfl, rfl, rfl, rfl⟩, fun _ => ⟨rfl, rfl, rfl, rfl⟩,
    ⟨⟨.lost, 9, 0, false, [.outstanding], 1, none⟩, rfl⟩,
    ⟨⟨.draining, 9, 0, false, [.outstanding, .outstanding], 2, none⟩, rfl, by decide⟩,
    fun k => ⟨⟨.draining, 9, 0, false, [.outstanding], 1, k⟩, rfl, Nat.le_refl 1, rfl⟩,
    fun _ => ⟨_, _, rfl, rfl, rfl, rfl, rfl, rfl⟩, rfl⟩

/-- O49: a STALE number, a FREE one, and a lane that is OFFLINE. -/
theorem witness_LaneTimers_numbers :
    (∃ s : State, Table.get? (s.lane .lane0).reads 3 = some (.stale 20) ∧ (s.lane .lane0).state ≠ .offline) ∧
      (∃ s : State, Table.get? (s.lane .lane0).reads 3 = none ∧ (s.lane .lane0).state ≠ .offline) ∧
      ∃ s : State, (s.lane .lane0).state = .offline :=
  ⟨⟨stage.setLane .lane0 { stage.lane .lane0 with reads := [(3, .stale 20)] }, rfl, by decide⟩, ⟨stage, rfl, by decide⟩,
    ⟨stage.setLane .lane0 (Lane.initial false), rfl⟩⟩

/-- O49: a stopped window, an ERRORED lane with no failure, one with a failure, and a READY lane. -/
theorem witness_LaneTimers_window :
    let s (x : Lane) : State := stage.setLane .lane3 x
    let errored : Lane := { Lane.initial true with state := .errored }
    ((s (Lane.initial false)).lane .lane3).window = none ∧ ((s errored).lane .lane3).window.isSome = true ∧
      ((s errored).lane .lane3).errors = 0 ∧ ((s { errored with errors := 1 }).lane .lane3).errors = 1 ∧
      ((s (Lane.initial true)).lane .lane3).window.isSome = true := by decide

/-- The slots that this state lists. -/
theorem fetching_slot {v j : Nat} {x : Slot} (hj : j < 8) (h : fetching.slot? v j = some x) :
    v = 0 ∧ (j = 0 ∨ j = 1 ∨ j = 2 ∨ j = 3 ∨ j = 4 ∨ j = 5 ∨ j = 6) := by
  have hi : 8 * v + j < 7 := by
    by_contra hn
    have : Table.get? fetching.slots (8 * v + j) = none := by
      simp only [fetching, Table.get?]
      rw [if_neg (by omega), if_neg (by omega), if_neg (by omega), if_neg (by omega), if_neg (by omega),
        if_neg (by omega), if_neg (by omega)]
    unfold State.slot? slotIndex at h
    rw [this] at h
    cases h
  omega

/-- Its queues, slots and reads are in accord. -/
theorem fetching_sound : fetching.FetchSound := by
  refine ⟨by decide, fun l => by cases l <;> decide, by decide, by decide, ?_, ?_, ?_⟩
  · refine fun v j p => ⟨fun h => ?_, fun ⟨hj, x, hx, hm⟩ => ?_⟩
    · obtain ⟨rfl, rfl, rfl⟩ : v = 0 ∧ j = 1 ∧ p = 0 := by
        simpa [fetching, stage, session, State.reset, State.partsQueued, State.lane, PerLane.get, Lane.initial] using h
      exact ⟨by decide, _, rfl, rfl⟩
    · obtain ⟨rfl, hj⟩ := fetching_slot hj hx
      obtain rfl | rfl | rfl | rfl | rfl | rfl | rfl := hj
      all_goals
        obtain rfl := Option.some.inj hx
        cases p with
        | zero => first | decide | cases hm
        | succ p => cases hm
  · intro v j p h
    have h' : (v = 0 ∧ j = 0 ∧ p = 0) ∨ (v = 0 ∧ j = 3 ∧ p = 0) ∨ (v = 0 ∧ j = 5 ∧ p = 0) ∨ (v = 0 ∧ j = 6 ∧ p = 0) := by
      simpa [fetching, stage, session, State.reset, State.partsRead, State.lane, PerLane.get, Lane.initial] using h
    obtain ⟨rfl, rfl, rfl⟩ | ⟨rfl, rfl, rfl⟩ | ⟨rfl, rfl, rfl⟩ | ⟨rfl, rfl, rfl⟩ := h'
    all_goals exact ⟨by decide, _, rfl, rfl⟩
  · intro v j x hj h
    obtain ⟨rfl, hj⟩ := fetching_slot hj h
    obtain rfl | rfl | rfl | rfl | rfl | rfl | rfl := hj
    all_goals
      obtain rfl := Option.some.inj h
      decide

/-- O50: a module present, one absent with its lane OFFLINE, and a sound state with slots in every state: of the
DRAINING ones, when lane 0 is lost the first becomes EMPTY, the second takes its successor on the lane that is lost,
and the third is read elsewhere only and is left; when lane 1 is lost that one takes its successor on lane 0. The
segment that lane 0 reads is LIVE. -/
theorem witness_Presence :
    (∃ s : State, (s.lane .lane2).present = true) ∧
      (∃ s : State, (s.lane .lane2).present = false ∧ (s.lane .lane2).state = .offline) ∧
      fetching.FetchSound ∧ (fetching.lane .lane0).present = true ∧ (fetching.lane .lane1).present = true ∧
      fetching.slots.map (fun row => (row.2.state, row.2.successor)) =
        [(.inFlight, none), (.queued, none), (.full, none), (.draining, none), (.lost, none), (.draining, some 13),
         (.draining, some 14)] ∧
      (∀ m, m ≠ .lane0 → ∀ row ∈ (fetching.lane m).reads, ∀ a u ms, row.2 ≠ .busy (.stream 0 5 0) a u ms) ∧
      (0, .busy (.stream 0 6 0) 1006 1 20) ∈ (fetching.lane .lane1).reads ∧
      (∀ n ∈ (fetching.lane .lane0).queue, ¬(n.voice = 0 ∧ n.slot = 6)) ∧
      (∀ row ∈ (fetching.lane .lane0).reads, ∀ p a u ms, row.2 ≠ .busy (.stream 0 6 p) a u ms) ∧
      fetching.voice? 0 = some voice ∧ fetching.entry? voice.handle = some sample ∧ sample.lane = .lane0 ∧
      (fetching.lane .lane0).state ≠ .offline ∧ (fetching.lane .lane0).primingList.head? = some 1 ∧
      (6, .busy (.priming 1 0 false) 2000 16 20) ∈ (fetching.lane .lane0).reads ∧
      (fetching.lane .lane0).segments = [⟨.outstanding, true⟩, ⟨.done, false⟩] := by
  refine ⟨⟨stage, rfl⟩, ⟨stage.setLane .lane2 (Lane.initial false), rfl, rfl⟩, fetching_sound, rfl, rfl, rfl, ?_,
    by decide, by decide, ?_, rfl, rfl, rfl, by decide, rfl, by decide, rfl⟩
  · intro m hm row hrow a u ms h
    cases m <;> simp_all [fetching, stage, session, State.reset, State.lane, PerLane.get, Lane.initial]
  · intro row hrow p a u ms h
    simp [fetching, stage, session, State.reset, State.lane, PerLane.get, Lane.initial] at hrow
    obtain rfl | rfl | rfl | rfl := hrow <;> cases h

/-- O51: a lane OFFLINE, one with no number FREE, one with a part at the head of its queue and its first number FREE,
and one with a segment to read; every table of reads in its form. -/
theorem witness_DispatchFrame :
    (∃ s : State, (s.lane .lane2).state = .offline ∧ Table.Rising (s.lane .lane2).reads) ∧
    (∃ x : Lane, (∀ n < 32, (Table.get? x.reads n).isSome = true) ∧ Table.Rising x.reads) ∧
    ((fetching.lane .lane0).state ≠ .offline ∧ (fetching.lane .lane0).readsOutstanding < 32 ∧
      (∀ l, Table.Rising (fetching.lane l).reads) ∧ Table.get? (fetching.lane .lane0).reads 0 = none ∧
      (fetching.lane .lane0).queue = [⟨0, 1, 0, 1039, 1009, 1⟩] ∧ (fetching.slot? 0 1).isSome = true) ∧
    (let s := priming [⟨.outstanding, false⟩, ⟨.unread, false⟩]
     (s.lane .lane0).queue = [] ∧ (s.lane .lane0).primingOutstanding < 4 ∧ (s.lane .lane0).primingList = [0] ∧
       (s.lane .lane0).segments[1]? = some ⟨.unread, false⟩ ∧
       ∀ i < 1, ∀ x, (s.lane .lane0).segments[i]? = some x → x.state ≠ .unread) ∧
    ∀ g ∈ ((priming [⟨.outstanding, false⟩]).lane .lane0).segments, g.state ≠ .unread :=
  ⟨⟨stage.setLane .lane2 (Lane.initial false), rfl, by decide⟩,
    ⟨{ Lane.initial true with reads := (List.range 32).map fun n => (n, .stale 1) }, by decide, by decide⟩,
    ⟨by decide, by decide, fun l => by cases l <;> decide, by decide, rfl, rfl⟩,
    ⟨rfl, by decide, rfl, rfl, fun i h x hx => by
      obtain rfl : i = 0 := by omega
      cases hx
      decide⟩, by decide⟩

/-- O52: deadlines within half a circle; an EMPTY slot, a DRAINING one and one that is neither; a slot of each kind
passed; a part that waits; a successor; a ring above and at the refill mark. -/
theorem witness_RingOperations :
    let q : QueueEntry := ⟨0, 1, 0, 1039, 1009, 1⟩
    (∀ m ∈ q :: (fetching.lane .lane0).queue, (m.deadline - 1000).toNat < 2 ^ 31) ∧
      ((fetching.lane .lane0).queue.Pairwise fun a b => (a.deadline - 1000).toNat ≤ (b.deadline - 1000).toNat) ∧
      fetching.slot? 0 ((15 - voice.headChunks) % 8) = none ∧
      (fetching.slot? 0 ((11 - voice.headChunks) % 8)).map (fun x => x.state) = some .draining ∧
      (fetching.slot? 0 ((10 - voice.headChunks) % 8)).map (fun x => x.state) = some .full ∧
      (∃ n ∈ (fetching.lane .lane0).queue, n.voice = 0 ∧ n.slot < 8) ∧ (fetching.lane sample.lane).state ≠ .offline ∧
      (∃ x : Slot, x.outstanding ≤ 1 ∧ x.successor = some 11) ∧ fetching.voice? 0 = some voice ∧
      fetching.entry? voice.handle = some sample ∧ fetching.config.lowWater = 3 ∧
      ((List.range 8).filterMap fun j => committedChunk (fetching.slot? 0 j)) = [8, 9, 10, 12, 13, 14] ∧
      chunkPastEnd voice sample 15 = false :=
  ⟨by decide, by decide, by decide, by decide, by decide, by decide, by decide,
    ⟨⟨.draining, 3, 0, false, [], 1, some 11⟩, by decide, rfl⟩, rfl, rfl, rfl, by decide, by decide⟩

/-- O52: a state within its windows, above the refill mark and, with a mark of 6, at it. -/
theorem witness_RingOperations_refill (lowWater : Nat) :
    ({ fetching with config := { fetching.config with lowWater := lowWater } }).WindowsHold := by
  refine ⟨(by decide : fetching.config.period ≤ 1024), (by decide : Table.Rising fetching.voices),
    (by decide : Table.Rising fetching.slots), ?_⟩
  intro v j slot hj h k hk
  obtain ⟨rfl, hj⟩ := fetching_slot hj h
  obtain rfl | rfl | rfl | rfl | rfl | rfl | rfl := hj
  all_goals
    obtain rfl := Option.some.inj h
    cases hk <;> exact ⟨voice, rfl, by decide, by decide, by decide, by decide⟩

/-- O53: a voice non-FREE, a field out of range behind others in range, and a configuration at its limits, between
passes and in one. -/
theorem witness_Configure :
    let c : Configuration := ⟨96000, 1024, 16, 2048, 6, 8388607, 255, 255, 65535, 512, 64, 64, 255, .finish, false⟩
    let r := request 0x20 (configBytes c)
    (asked r brimming).Takes r [] ∧ r.kind = 0x20 ∧ r.mark = .unmarked ∧ (asked r brimming).voices ≠ [] ∧
      firstOut (configRanges (configBytes { c with tolerance := 513 })) 10 ∧ c.InRange ∧
      ((asked r (voiceless brimming)).Takes r [] ∧ (asked r (voiceless brimming)).voices = [] ∧
        (asked r (voiceless brimming)).pass = none) ∧
      ((asked r (voiceless inPass)).Takes r [] ∧ (asked r (voiceless inPass)).voices = [] ∧
        (asked r (voiceless inPass)).pass = some (passOf 1012 0)) := by
  refine ⟨asked_takes _ _ rfl, rfl, rfl, by decide,
    ⟨(configRanges _).take 9, _, (configRanges _).drop 10, rfl, by decide, ?_⟩,
    ?_, ⟨asked_takes _ _ rfl, rfl, rfl⟩, asked_takes _ _ rfl, rfl, rfl⟩
  · simp only [configRanges, List.take, List.forall_mem_cons, List.not_mem_nil, false_imp_iff, implies_true]
    decide
  · unfold Configuration.InRange
    decide

/-- O54: a head of one chunk, and the frames just below it. -/
theorem witness_LoadSample_head : clampHead 1024 1024 = 1024 ∧ clampHead 1023 65536 = 0 ∧ clampHead 100000 1023 = 0 ∧
    clampHead 100000 100000 = 65536 := by decide

/-- A LOAD_SAMPLE body. -/
def loadBody (handle requested base check : Nat) : List Byte :=
  toBE 4 handle ++ [1] ++ toBE 8 1000 ++ toBE 4 50000 ++ [2, 2, 0, 4] ++ toBE 4 requested ++ toBE 4 base ++ [0] ++
    toBE 8 0 ++ [BitVec.ofNat 8 (min check 1)] ++ toBE 4 check

/-- O54: each refusal, a bad lane behind no field and a loop too short behind ten in range among them, and each
acceptance. -/
theorem witness_LoadSample :
    (∀ b, (asked (request 0x21 b) brimming).Takes (request 0x21 b) []) ∧
      131071 < field (loadBody 131072 8192 0 0) 0 4 ∧
      (brimming.entry? (field (loadBody 0 8192 0 0) 0 4)).isSome = true ∧
      brimming.entry? (field (loadBody 131071 8192 0 0) 0 4) = none ∧
      firstOut (loadRanges (toBE 4 131071 ++ [4])) 2 ∧
      (let short := (loadBody 131071 8192 1 0).take 29 ++ [1] ++ toBE 4 1000 ++ toBE 4 2023 ++ [0, 0, 0, 0, 0]
       firstOut (loadRanges short) 13) ∧
      allIn (loadRanges (loadBody 131071 8192 1 0)) ∧
      262143 < field (loadBody 131071 8192 262144 0) 25 4 + 1 - 1 ∧
      runsOverlap 0 1 sample = true ∧ runsOverlap 1 1 sample = false ∧
      clampHead 50000 8192 = 8192 ∧ clampHead 50000 1023 = 0 ∧ field (loadBody 1 1023 0 0) 38 1 = 0 ∧
      field (loadBody 1 1023 0 9) 38 1 = 1 := by
  refine ⟨fun _ => asked_takes _ _ rfl, by decide, by decide, by decide, ⟨[], _, _, rfl, by decide, nofun⟩,
    ⟨(loadRanges _).take 9, _, (loadRanges _).drop 10, rfl, by decide +kernel, ?_⟩, ?_, by decide +kernel⟩
  all_goals
    simp only [allIn, loadRanges, List.take, List.forall_mem_cons, List.not_mem_nil, false_imp_iff, implies_true]
    decide +kernel

/-- O55: a handle above the last, an EMPTY entry, an entry in each state, and a PRIMING entry at the head of its lane's
list, alone and before another, and behind the head. -/
theorem witness_RetireSample :
    (∀ b, (asked (request 0x22 b) brimming).Takes (request 0x22 b) []) ∧ 131071 < field (toBE 4 131072) 0 4 ∧
      brimming.entry? (field (toBE 4 131071) 0 4) = none ∧
      (∀ state : EntryState, ∃ s e, s = { brimming with library := { stage.library with
          samples := [(131071, { sample with state := state })] } } ∧ s.entry? 131071 = some e ∧ e.state = state) ∧
      ∀ list : List Nat, ∃ s : State,
        s = { brimming with
              library := { stage.library with
                           samples := [(1, { sample with state := .priming }), (2, { sample with state := .priming })] }
              lanes := { stage.lanes with lane0 := { Lane.initial true with primingList := list } } } ∧
        (s.lane .lane0).primingList = list ∧ (s.entry? 1).isSome = true ∧ (s.entry? 2).isSome = true ∧
        ([1] : List Nat).filter (· ≠ 1) = [] ∧ ([1, 2] : List Nat).filter (· ≠ 1) = [2] ∧
        ([2, 1] : List Nat).head? ≠ some 1 :=
  ⟨fun _ => asked_takes _ _ rfl, by decide, by decide, fun _ => ⟨_, _, rfl, rfl, rfl⟩,
    fun _ => ⟨_, rfl, rfl, rfl, rfl, by decide, by decide, by decide⟩⟩

/-- O56: each table's load refused and accepted, at the limits of its indices. -/
theorem witness_TableLoads :
    let zone : List Byte := [0, 127, 1, 127, 15] ++ toBE 4 131071 ++ [15, 255] ++ toBE 2 65535
    let curve (last : Byte) : List Byte := [15, 1, 26, 51, 76, 101, last] ++ List.replicate 12 0
    (∀ kind b, (asked (request kind b) brimming).Takes (request kind b) []) ∧
      allIn (articulationRanges (toBE 2 4095 ++ toBE 2 65535 ++ [1, 16] ++ toBE 4 262144)) ∧
      firstOut (articulationRanges (toBE 2 4095 ++ toBE 2 65535 ++ [2])) 3 ∧
      allIn (zonesRanges (toBE 2 65535 ++ toBE 2 1 ++ zone)) ∧
      firstOut (zonesRanges (toBE 2 65535 ++ toBE 2 2 ++ zone ++ zone)) 2 ∧
      pointsRise (curve 127) ∧ ¬pointsRise (curve 126) ∧ field (curve 127) 0 1 ≤ 15 ∧
      15 < field [16] 0 1 ∧ field (toBE 2 255) 0 2 ≤ 255 ∧ 255 < field (toBE 2 256) 0 2 := by
  refine ⟨fun _ _ => asked_takes _ _ rfl, ?_,
    ⟨(articulationRanges _).take 2, _, (articulationRanges _).drop 3, rfl, by decide, ?_⟩,
    ?_, ⟨[_], _, _, rfl, ?_, List.forall_mem_singleton.mpr ?_⟩, ?_, ?_, by decide +kernel⟩
  all_goals
    first
    | decide +kernel
    | simp only [allIn, articulationRanges, zonesRanges, pointsRise, List.take, List.forall_mem_append,
        List.forall_mem_flatMap, List.mem_range, List.forall_mem_cons, List.not_mem_nil, false_imp_iff, implies_true]
      decide +kernel

/-- O57: the handles at the limit, a tag in the map and one that is not, between passes and in one. -/
theorem witness_Queries :
    (∀ kind b, (asked (request kind b) brimming).Takes (request kind b) []) ∧ 131071 < field (toBE 4 131072) 0 4 ∧
      field (toBE 4 131071) 0 4 ≤ 131071 ∧ brimming.entry? 131071 = none ∧ brimming.pass = none ∧
      (∀ kind b, (asked (request kind b) inPass).Takes (request kind b) []) ∧ inPass.pass.isSome = true ∧
      brimming.TagsDistinct ∧ brimming.voice? 0 = some voice ∧ brimming.entry? 0 = some sample ∧
      voice.tag = BitVec.ofNat 32 (field (toBE 4 0x500) 0 4) ∧
      ∀ row ∈ brimming.voices, row.2.tag ≠ BitVec.ofNat 32 (field (toBE 4 0x501) 0 4) :=
  ⟨fun _ _ => asked_takes _ _ rfl, by decide, by decide, by decide, rfl, fun _ _ => asked_takes _ _ rfl, rfl,
    playing_tags voice _ rfl, rfl, rfl, by decide, by decide⟩

/-- O57: a QUERY_STATUS with two parts left, and with one, and nothing commanded; and a tick and an expiry that open a
pass ahead of those two. -/
theorem witness_Queries_status :
    let s (n : List HandedTick) : State :=
      beingRead [.lane .lane3, .configuration] { session with cadence := locked, port := { session.port with handed := n } }
    (∀ n, (s n).report.busy = some (request 0x2C []) ∧
      (s n).report.reading = some ⟨[], [.lane .lane3, .configuration]⟩ ∧ (s n).pending = [] ∧ (s n).pass = none) ∧
    ((beingRead [.configuration] stage).report.reading.map fun g => g.left.length) = some 1 ∧
    (∃ t, exec (.tick 0) (statusDone (s [⟨1008, 10287⟩])) = .next t ∧ t.pass.isSome = true) ∧
    ∃ t, exec .localPeriodTimerExpiry (statusDone (s [])) = .next t ∧ t.pass.isSome = true :=
  ⟨fun _ => ⟨rfl, rfl, rfl, rfl⟩, rfl, ⟨_, rfl, by decide⟩, ⟨_, rfl, by decide⟩⟩

/-- O58: a bad mask, codes on either side of the known ones, entries in range, and each way to want a NOTICE. -/
theorem witness_EventRequests :
    (∀ kind b, (asked (request kind b) brimming).Takes (request kind b) []) ∧
      firstOut (maskRanges [20, 2]) 2 ∧ firstOut (codeRanges [1, 0]) 2 ∧ firstOut (codeRanges [21]) 1 ∧
      ([1, 1, 20, 0] : List Byte) = [(EventKind.dropout, true), (.foreignSource, false)].flatMap
        (fun e => [BitVec.ofNat 8 (eventCode e.1), if e.2 then 1 else 0]) ∧
      ([1, 20] : List Byte) = [EventKind.dropout, .foreignSource].map (fun k => BitVec.ofNat 8 (eventCode k)) ∧
      (∃ r : Report, (r.event .clip).raw = true ∧ (r.event .clip).masked = true) ∧
      ∃ r : Report, (r.event .clip).raw = false ∧ (r.event .clip).masked = false :=
  ⟨fun _ _ => asked_takes _ _ rfl, ⟨[_], _, [], rfl, by decide, List.forall_mem_singleton.mpr (by decide)⟩,
    ⟨[_], _, [], rfl, by decide, List.forall_mem_singleton.mpr (by decide)⟩, ⟨[], _, [], rfl, by decide, nofun⟩,
    by decide, by decide,
    ⟨{ Report.initial with events := [(11, ⟨true, true, false, 1, none⟩)] }, by decide, by decide⟩,
    ⟨{ Report.initial with events := [(11, ⟨false, false, false, 0, none⟩)] }, by decide, by decide⟩⟩

/-- O59, O60: between passes in SEARCH and in LOCKED, and in a pass. -/
theorem witness_Resync_Reset :
    (∀ kind, (asked (request kind []) brimming).Takes (request kind []) []) ∧ brimming.pass = none ∧
      brimming.cadence.state ≠ .search ∧ ({ brimming with cadence := Cadence.initial }).cadence.state = .search ∧
      (∀ kind, (asked (request kind []) inPass).Takes (request kind []) []) ∧ inPass.pass.isSome = true ∧
      Table.Rising brimming.slots ∧ Table.Rising brimming.library.samples ∧ Table.Rising brimming.library.matrices ∧
      ∃ (s : State) (h : Nat) (e : SampleEntry), (s.lane .lane0).primingList = [h] ∧ s.entry? h = some e ∧ e.state = .priming ∧
        Table.Rising s.library.samples :=
  ⟨fun _ => asked_takes _ _ rfl, rfl, by decide, rfl, fun _ => asked_takes _ _ rfl, rfl, by decide, by decide, by decide,
    ⟨priming [], 0, _, rfl, rfl, rfl, by decide⟩⟩

end Sys2Proof.Tests
end

section
/-! SUPPORT. The gain laws of chapter 2: the interpolation on one segment, the search for a curve's segment, and the
voice gain's rescaling. -/

namespace Sys2Proof.Machine

/-! ### One segment (R30) -/

/-- The truncated part of a nonnegative rise stays within the rise. -/
theorem tdiv_share_of_nonneg {rise part width : Int} (hr : 0 ≤ rise) (h0 : 0 ≤ part) (hw : part ≤ width) :
    0 ≤ (rise * part).tdiv width ∧ (rise * part).tdiv width ≤ rise := by
  have hp : 0 ≤ rise * part := Int.mul_nonneg hr h0
  refine ⟨Int.tdiv_nonneg hp (h0.trans hw), ?_⟩
  rcases (h0.trans hw).eq_or_lt with empty | wide
  · rwa [← empty, Int.tdiv_zero]
  · rw [Int.tdiv_eq_ediv_of_nonneg hp]
    exact Int.ediv_le_of_le_mul wide (Int.mul_le_mul_of_nonneg_left hw hr)

theorem segmentGain_start (p q : CurvePoint) : segmentGain p q p.velocity = p.gain := by
  simp [segmentGain]

theorem segmentGain_end {p q : CurvePoint} (h : p.velocity < q.velocity) :
    segmentGain p q q.velocity = q.gain := by
  have width : (q.velocity : Int) - p.velocity ≠ 0 := by omega
  simp [segmentGain, Int.mul_tdiv_cancel _ width]

/-- R30: the gain on a segment lies between the gains of its two points; a falling segment mirrors a rising one, as
truncation toward zero is odd. -/
theorem segmentGain_between {p q : CurvePoint} {v : Nat} (hp : p.velocity ≤ v) (hq : v ≤ q.velocity) :
    (min p.gain q.gain : Nat) ≤ segmentGain p q v ∧ segmentGain p q v ≤ (max p.gain q.gain : Nat) := by
  have h0 : 0 ≤ (v : Int) - p.velocity := by omega
  have hw : (v : Int) - p.velocity ≤ (q.velocity : Int) - p.velocity := by omega
  unfold segmentGain
  rcases Nat.le_total p.gain q.gain with rising | falling
  · have share := tdiv_share_of_nonneg (rise := (q.gain : Int) - p.gain) (by omega) h0 hw
    omega
  · have share := tdiv_share_of_nonneg (rise := (p.gain : Int) - q.gain) (by omega) h0 hw
    rw [← Int.neg_sub (p.gain : Int) q.gain, Int.neg_mul, Int.neg_tdiv]
    omega

/-! ### The segment of a curve -/

/-- The gain at a velocity on the line through a point and those that follow it: on the first segment that ends no
lower, and the last point's gain past them all. -/
def gainAlong : CurvePoint → List CurvePoint → Nat → Int
  | p, [], _ => p.gain
  | p, q :: rest, v => if v ≤ q.velocity then segmentGain p q v else gainAlong q rest v

/-- R28: the points rise in velocity. -/
def VelocitiesRise (points : List CurvePoint) : Prop :=
  points.Pairwise fun p q => p.velocity < q.velocity

theorem gainAlong_start {p : CurvePoint} {rest : List CurvePoint} (h : VelocitiesRise (p :: rest)) :
    gainAlong p rest p.velocity = p.gain := by
  cases rest with
  | nil => rfl
  | cons q rest =>
    have below : p.velocity ≤ q.velocity := (List.rel_of_pairwise_cons h List.mem_cons_self).le
    rw [gainAlong, if_pos below, segmentGain_start]

/-- Every segment that holds the velocity gives the same gain: two that hold it meet there, and both reproduce the
gain of the point where they meet. -/
theorem gainAlong_eq_segmentGain {a b : CurvePoint} {v : Nat} (ha : a.velocity ≤ v) (hb : v ≤ b.velocity)
    {p : CurvePoint} {rest : List CurvePoint} (h : VelocitiesRise (p :: rest)) (hab : (a, b) ∈ (p :: rest).zip rest) :
    gainAlong p rest v = segmentGain a b v := by
  induction rest generalizing p with
  | nil => cases hab
  | cons q rest ih =>
    have tail : VelocitiesRise (q :: rest) := List.Pairwise.of_cons h
    rw [gainAlong]
    rcases List.mem_cons.mp hab with here | later
    · obtain ⟨rfl, rfl⟩ := Prod.mk.inj here
      exact if_pos hb
    · have past : q.velocity ≤ a.velocity := by
        rcases List.mem_cons.mp (List.of_mem_zip later).1 with rfl | ma
        · exact le_rfl
        · exact (List.rel_of_pairwise_cons tail ma).le
      split
      case isTrue hq =>
        obtain rfl : v = q.velocity := by omega
        calc segmentGain p q q.velocity
            = q.gain := segmentGain_end (List.rel_of_pairwise_cons h List.mem_cons_self)
          _ = gainAlong q rest q.velocity := (gainAlong_start tail).symm
          _ = segmentGain a b q.velocity := ih tail later
      case isFalse => exact ih tail later

/-- R30: the model's search is that of `gainAlong` over the six points; no velocity is past the last. -/
theorem Curve.gainAt_eq_gainAlong (c : Curve) {v : Nat} (h : v ≤ c.p5.velocity) :
    c.gainAt v = (gainAlong c.p0 [c.p1, c.p2, c.p3, c.p4, c.p5] v).toNat := by
  simp only [Curve.gainAt, gainAlong, if_pos h]

theorem rise_of_curveRises {c : Curve} (h : curveRises c = true) :
    VelocitiesRise [c.p0, c.p1, c.p2, c.p3, c.p4, c.p5] ∧ c.p5.velocity = 127 := by
  simp only [curveRises, Bool.and_eq_true, beq_iff_eq, decide_eq_true_eq] at h
  obtain ⟨⟨⟨⟨⟨⟨-, last⟩, h01⟩, h12⟩, h23⟩, h34⟩, h45⟩ := h
  refine ⟨?_, last⟩
  simp only [VelocitiesRise, List.pairwise_cons, List.forall_mem_cons, List.not_mem_nil, false_imp_iff, implies_true,
    List.Pairwise.nil, and_true]
  omega

/-- R30: on every segment that holds it, the curve gain is that segment's. -/
theorem Curve.gainAt_eq_segmentGain {c : Curve} {v : Nat} (h : curveRises c = true) (hv : v ≤ 127) {p q : CurvePoint}
    (hpq : (p, q) ∈ [(c.p0, c.p1), (c.p1, c.p2), (c.p2, c.p3), (c.p3, c.p4), (c.p4, c.p5)])
    (hp : p.velocity ≤ v) (hq : v ≤ q.velocity) : (c.gainAt v : Int) = segmentGain p q v := by
  obtain ⟨rise, last⟩ := rise_of_curveRises h
  have nonneg : 0 ≤ segmentGain p q v := le_trans (Int.natCast_nonneg _) (segmentGain_between hp hq).1
  rw [c.gainAt_eq_gainAlong (last ▸ hv), gainAlong_eq_segmentGain hp hq rise hpq, Int.toNat_of_nonneg nonneg]

/-! ### The voice gain (R31) -/

/-- R31: the largest unlimited value, at both codes 65,535. -/
theorem rescaledProduct_le {gain trim : Nat} (hg : gain ≤ 65535) (ht : trim ≤ 65535) :
    (gain * trim + 16384) / 32768 ≤ 131068 := by
  have product : gain * trim ≤ 65535 * 65535 := Nat.mul_le_mul hg ht
  omega

theorem voiceGain_unity {gain : Nat} (h : gain ≤ 65535) : voiceGain gain 32768 = gain := by
  unfold voiceGain
  omega

theorem voiceGain_zero (gain : Nat) : voiceGain gain 0 = 0 := by
  simp [voiceGain]

/-- Settles O33: each segment that holds the velocity gives the one gain that the model's search finds, and that gain
is within the segment's; the voice gain's laws are arithmetic on 16-bit codes. -/
theorem gains : Obligations.Gains := by
  refine ⟨fun c v rises _ hv p q hpq hp hq => ?_, fun gain trim hg ht => ?_, fun _ _ _ => rfl⟩
  · have onSegment := Curve.gainAt_eq_segmentGain rises hv hpq hp hq
    have between := segmentGain_between hp hq
    rw [← onSegment] at between
    exact ⟨onSegment, Int.ofNat_le.mp between.1, Int.ofNat_le.mp between.2⟩
  · exact ⟨rfl, rescaledProduct_le hg ht, voiceGain_unity hg, voiceGain_zero gain⟩

end Sys2Proof.Machine
end

section
/-! SUPPORT. The voice controller's first check of a start: a tag in the tag map, and the step that takes a START item. -/

namespace Sys2Proof.Machine

/-- R39: the search by tag finds a record exactly for the tags of the tag map. -/
theorem State.findTag?_isSome_iff {s : State} {tag : Tag} :
    (s.findTag? tag).isSome = true ↔ ∃ v, (tag, v) ∈ s.tagMap := by
  simp only [State.findTag?, State.tagMap, Option.isSome_map, List.find?_isSome, List.mem_map, beq_iff_eq, Prod.exists,
    Prod.mk.injEq]
  constructor
  · rintro ⟨v, x, mem, carries⟩
    exact ⟨v, v, x, mem, carries, rfl⟩
  · rintro ⟨-, v, x, mem, carries, -⟩
    exact ⟨v, x, mem, carries⟩

/-- R42: of a start whose tag is in the tag map the event is all there is. -/
theorem State.takeStart_of_mem_tagMap {s : State} {tag : Tag} (h : ∃ v, (tag, v) ∈ s.tagMap)
    (articulation note velocity : Nat) (period : PeriodIndex) (offset source : Nat) :
    s.takeStart tag articulation note velocity period offset source = s.raise (.tagInUse tag) :=
  if_pos (State.findTag?_isSome_iff.mpr h)

theorem exec_voiceStart (s : State) : exec .voiceStart s = execVoiceStart s := rfl

/-- R41: between passes, VOICE_START with a START item at the head takes it off, carries it out whole and finishes it. -/
theorem exec_voiceStart_of_takesItem {s : State} {tag : Tag} {articulation note velocity : Nat} {period : PeriodIndex}
    {offset source : Nat} {rest : List VoiceItem}
    (h : s.TakesItem (.start tag articulation note velocity period offset source) rest) :
    exec .voiceStart s =
      .next ((s.popItem rest).takeStart tag articulation note velocity period offset source).finishItem := by
  obtain ⟨noPass, head⟩ := h
  simp [exec_voiceStart, execVoiceStart, State.passUnderWay, noPass, head]

/-- R41, R42: an item whose whole effect is one event leaves the port with the item off and the report with the event. -/
theorem State.finishItem_raise_popItem (s : State) (rest : List VoiceItem) (c : Capture) :
    ((s.popItem rest).raise c).finishItem =
      State.dispatch { s with port := s.itemOff rest, report := s.report.raise c } := rfl

/-- Settles O25: taking the item off leaves the tag map as it was, so the start comes to its event alone. -/
theorem startTagInUse : Obligations.StartTagInUse := by
  intro s tag articulation note velocity period offset source rest takes inUse
  have stillInUse : ∃ v, (tag, v) ∈ (s.popItem rest).tagMap := inUse
  rw [exec_voiceStart_of_takesItem takes, State.takeStart_of_mem_tagMap stillInUse, State.finishItem_raise_popItem]

end Sys2Proof.Machine
end

section
/-! SUPPORT. What every command and every idle step may change, that each completes, and that each keeps the
invariants of memory, port, articulations, tags, event records and reports: one relation that composes, and one lemma
for each command. -/

namespace Sys2Proof.Machine

/-- From `s` to `t` only the listed parts change and the invariants are kept; unlike `State.Goes`, a REPLY and a request
begun are allowed. -/
structure State.Moves (s t : State) (ps : List Part) : Prop where
  only    : s.ChangesOnly t ps
  keeps   : s.Keeps t
  events  : s.report.EventsConsistent → t.report.EventsConsistent
  bounded : s.report.Bounded → t.report.Bounded

theorem State.Moves.refl (s : State) (ps : List Part) : s.Moves s ps :=
  ⟨.refl s ps, .refl s, id, id⟩

theorem State.Moves.then {s t u : State} {ps qs : List Part} (h : s.Moves t ps) (k : t.Moves u qs)
    (m : ∀ p ∈ qs, p ∈ ps) : s.Moves u ps :=
  ⟨h.only.trans (k.only.wider m), h.keeps.trans k.keeps, k.events ∘ h.events, k.bounded ∘ h.bounded⟩

theorem State.Moves.wider {s t : State} {ps qs : List Part} (h : s.Moves t ps) (m : ∀ p ∈ ps, p ∈ qs) :
    s.Moves t qs :=
  ⟨h.only.wider m, h.keeps, h.events, h.bounded⟩

theorem State.Goes.moves {s t : State} {ps : List Part} (h : s.Goes t ps) : s.Moves t ps :=
  ⟨h.only, h.keeps, h.report.consistent, h.report.bounded⟩

/-- A change of the reports alone. -/
theorem State.setReport_moves (s : State) (x : Report) (e : s.report.EventsConsistent → x.EventsConsistent)
    (b : s.report.Bounded → x.Bounded) : s.Moves (s.setReport x) [.report] :=
  ⟨s.setReport_changes x, ⟨id, id, id, id⟩, e, b⟩

theorem State.setPort_moves (s : State) (x : Port) (h : s.port.Bounded → x.Bounded) : s.Moves (s.setPort x) [.port] :=
  (s.setPort_goes x h).moves

/-- A command completes, changes the listed parts only and keeps the invariants. -/
def State.Completes (s : State) (o : Host.Outcome State Fault Refusal) (ps : List Part) : Prop :=
  ∃ t, o = .next t ∧ s.Moves t ps

theorem State.completes_next {s t : State} {ps : List Part} (h : s.Moves t ps) : s.Completes (.next t) ps :=
  ⟨t, rfl, h⟩

theorem State.completes_self (s : State) (ps : List Part) : s.Completes (.next s) ps :=
  State.completes_next (.refl s ps)

/-- A command completes and only goes on: it answers no request and takes none. -/
def State.GoesOn (s : State) (o : Host.Outcome State Fault Refusal) (ps : List Part) : Prop :=
  ∃ t, o = .next t ∧ s.Goes t ps

theorem State.goesOn_next {s t : State} {ps : List Part} (h : s.Goes t ps) : s.GoesOn (.next t) ps :=
  ⟨t, rfl, h⟩

theorem State.goesOn_self (s : State) (ps : List Part) : s.GoesOn (.next s) ps :=
  State.goesOn_next (.refl s ps)

theorem State.GoesOn.completes {s : State} {o : Host.Outcome State Fault Refusal} {ps : List Part}
    (h : s.GoesOn o ps) : s.Completes o ps := by
  obtain ⟨t, next, goes⟩ := h
  exact ⟨t, next, goes.moves⟩

theorem State.GoesOn.goes {s t : State} {ps : List Part} (h : s.GoesOn (.next t) ps) : s.Goes t ps := by
  obtain ⟨u, next, goes⟩ := h
  cases next
  exact goes

/-! ### Answering a request -/

/-- R155, R164: the REPLY takes the place that the request in progress holds reserved. -/
theorem State.reply_moves {s : State} {q : Request} (busy : s.report.busy = some q) (r : Request) (a : Answer) :
    s.Moves (s.reply r a) [.report] := by
  refine s.setReport_moves _ (Report.consistent_congr rfl) fun h => ⟨?_, h.2⟩
  have places := h.1
  rw [busy] at places
  simpa using places

theorem State.readOn_moves {s : State} {r : Request} (busy : s.report.busy = some r) (g : StatusReading) (n : Nat) :
    s.Moves (s.readOn r g n) [.report] :=
  ⟨s.readOn_changes r g n, s.readOn_keeps r g n, fun h k => (s.readOn_event r g n k).symm ▸ h k,
    State.readOn_bounded busy g n⟩

theorem State.readOut_moves (s : State) : s.Moves s.readOut [.report] := by
  unfold State.readOut
  split
  case h_1 => exact .refl _ _
  case h_2 r g reading => exact State.readOn_moves (Report.reading?_some.mp reading).1 g _

/-- What may come after the fields of a QUERY_STATUS that are left. -/
theorem State.readBefore_moves {take : State → State} {ps : List Part} (h : ∀ u : State, u.Moves (take u) ps) (s : State) :
    s.Moves (s.readBefore take) (.report :: ps) := by
  have later : ∀ p ∈ ps, p ∈ Part.report :: ps := fun _ => List.mem_cons_of_mem _
  unfold State.readBefore
  split
  · exact (s.readOut_moves.wider (by simp)).then (h _) later
  · exact (h s).wider later

/-- R154, R155: the request in progress has a place reserved that was free. -/
theorem State.beginRequest_moves {s : State} (grants : s.report.grants = true) (r : Request) :
    s.Moves (s.beginRequest r) [.port, .report] := by
  simp only [Report.grants, Bool.and_eq_true, decide_eq_true_eq, Report.freePlaces_pos] at grants
  obtain ⟨⟨⟨idle, -⟩, -⟩, free⟩ := grants
  refine ⟨s.beginRequest_changes r, ⟨id, fun h => ?_, id, id⟩, Report.consistent_congr rfl, fun h => ⟨?_, h.2⟩⟩
  · obtain ⟨voice, ticks, mgmt, data, malformed⟩ := h
    exact ⟨voice, ticks, (List.length_tail ▸ Nat.sub_le _ _ : s.port.mgmtQueue.tail.length ≤ _).trans mgmt, data,
      malformed⟩
  · rw [Option.isNone_iff_eq_none.mp idle] at free
    simpa [State.beginRequest] using free

theorem State.serve_completes {s : State} {fits : Request → Bool} {f : Request → State → State} {ps : List Part}
    (h : ∀ (r : Request) (t : State), t.report.busy = some r → t.Moves (f r t) ps) :
    s.Completes (s.serve fits f) (.port :: .report :: ps) := by
  unfold State.serve
  split
  case h_1 => exact s.completes_self _
  case h_2 r taken =>
    have grants : s.report.grants = true := by
      unfold State.request? at taken
      split at taken
      · cases taken
      · split at taken
        case isTrue both => exact (Bool.and_eq_true_iff.mp both).1
        case isFalse => cases taken
    exact State.completes_next (((State.beginRequest_moves grants r).wider (by simp)).then (h r _ rfl)
      fun _ m => List.mem_cons_of_mem _ (List.mem_cons_of_mem _ m))

/-- A command of the management unit that changes the listed parts and then answers. -/
theorem State.reply_after {s t : State} {ps : List Part} {r : Request} (busy : s.report.busy = some r) (h : s.Goes t ps)
    (a : Answer) : s.Moves (t.reply r a) (.report :: ps) :=
  (h.moves.wider fun _ => List.mem_cons_of_mem _).then (State.reply_moves (h.report.busy.trans busy) r a) (by simp)

/-! ### The requests of the management unit -/

theorem State.loadSample_moves {s : State} {r : Request} (busy : s.report.busy = some r) :
    s.Moves (s.loadSample r) [.report, .library, .slots, .lanes] := by
  unfold State.loadSample
  split
  · exact (State.reply_moves busy r _).wider (by decide)
  · exact (((State.reply_after busy (s.storeLoad_goes _ _) _).wider (by decide)).then
      (State.announceLoad_goes _ _ _).moves (by decide)).then (State.dispatch_goes _).moves (by decide)

theorem State.retireSample_moves {s : State} {r : Request} (busy : s.report.busy = some r) :
    s.Moves (s.retireSample r) [.report, .library, .slots, .lanes] := by
  unfold State.retireSample
  dsimp only
  split
  · exact (State.reply_moves busy r _).wider (by decide)
  · split
    · exact (State.reply_moves busy r _).wider (by decide)
    · exact ((State.reply_after busy (s.retireEntry_goes _ _) _).wider (by decide)).then
        (State.dispatch_goes _).moves (by decide)

/-- R27: the checks of R22 let through no round-robin count of 0. -/
theorem loadedArticulation_below {b : List Byte} (h : firstFailure (articulationChecks b) = none) :
    (loadedArticulation b).cursor < (loadedArticulation b).roundRobinCount := by
  by_contra zero
  have none : artRoundRobin b = 0 := by
    simpa [loadedArticulation] using zero
  revert h
  simp only [articulationChecks, firstFailure, none]
  split <;> [skip; simp]
  split <;> [skip; simp]
  split <;> [skip; simp]
  simp

theorem State.loadArticulation_moves {s : State} {r : Request} (busy : s.report.busy = some r) :
    s.Moves (s.loadArticulation r) [.report, .library] := by
  unfold State.loadArticulation
  split
  · exact (State.reply_moves busy r _).wider (by decide)
  case h_2 passed =>
    exact (State.reply_after busy (s.putArticulation_goes _ _ fun _ => loadedArticulation_below passed) _).wider
      (by decide)

theorem State.loadZones_moves {s : State} {r : Request} (busy : s.report.busy = some r) :
    s.Moves (s.loadZones r) [.report, .library] := by
  unfold State.loadZones
  split
  · exact (State.reply_moves busy r _).wider (by decide)
  · exact (State.reply_after busy (s.putZones_goes _) _).wider (by decide)

theorem State.loadCurve_moves {s : State} {r : Request} (busy : s.report.busy = some r) :
    s.Moves (s.loadCurve r) [.report, .library] := by
  unfold State.loadCurve
  split
  · exact (State.reply_moves busy r _).wider (by decide)
  · split
    · exact (State.reply_after busy (s.putCurve_goes _ _) _).wider (by decide)
    · exact (State.reply_moves busy r _).wider (by decide)

theorem State.loadMatrix_moves {s : State} {r : Request} (busy : s.report.busy = some r) :
    s.Moves (s.loadMatrix r) [.report, .library] := by
  unfold State.loadMatrix
  dsimp only
  split
  · exact (State.reply_moves busy r _).wider (by decide)
  · exact (State.reply_after busy (s.putMatrix_goes _ _) _).wider (by decide)

/-- What the entries of an event request keep of the reports. -/
structure EventWork.KeptFrom (w : EventWork) (r : Report) : Prop where
  busy    : w.report.busy = r.busy
  events  : r.EventsConsistent → w.report.EventsConsistent
  bounded : r.Bounded → w.report.Bounded

theorem EventWork.keptFrom_foldl {α : Type} (f : EventWork → α → EventWork)
    (h : ∀ w a, (f w a).KeptFrom w.report) (l : List α) (r : Report) :
    (l.foldl f { report := r, wanted := false }).KeptFrom r := by
  obtain ⟨busy, events, bounded⟩ := EventWork.foldl_kept f (fun w a => ⟨(h w a).busy, (h w a).events, (h w a).bounded⟩) l
    { report := r, wanted := false }
  exact ⟨busy, events, bounded⟩

theorem EventWork.keptFrom_self (w : EventWork) : w.KeptFrom w.report := ⟨rfl, id, id⟩

theorem maskWork_kept (b : List Byte) (r : Report) : (maskWork b r).KeptFrom r := by
  refine EventWork.keptFrom_foldl _ (fun w p => ?_) _ _
  split
  · exact w.keptFrom_self
  case h_2 k _ =>
    exact ⟨rfl, fun h => Report.putEvent_consistent h (EventRecord.setMask_consistent (h k) _), id⟩

theorem clearWork_kept (b : List Byte) (r : Report) : (clearWork b r).KeptFrom r := by
  refine EventWork.keptFrom_foldl _ (fun w p => ?_) _ _
  split
  · exact w.keptFrom_self
  · exact ⟨rfl, fun h => Report.putEvent_consistent h (EventRecord.clear_consistent _), id⟩

theorem setWork_kept (b : List Byte) (r : Report) : (setWork b r).KeptFrom r := by
  refine EventWork.keptFrom_foldl _ (fun w p => ?_) _ _
  split
  · exact w.keptFrom_self
  · exact ⟨rfl, fun h => Report.putEvent_consistent h (EventRecord.occur_consistent _ _), id⟩

theorem State.eventRequest_moves {s : State} {r : Request} (busy : s.report.busy = some r)
    (checks : List (Nat × Bool)) {w : EventWork} (kept : w.KeptFrom s.report) :
    s.Moves (s.eventRequest r checks w) [.report] := by
  unfold State.eventRequest
  split
  · exact State.reply_moves busy r _
  · have finished : s.Moves (s.setReport w.finish) [.report] :=
      s.setReport_moves _ (fun h k => w.finish_event k ▸ kept.events h k)
        fun h => EventWork.finish_bounded (kept.bounded h)
    have still : (s.setReport w.finish).report.busy = some r := w.finish_busy.trans (kept.busy.trans busy)
    exact finished.then (State.reply_moves still r _) (by decide)

/-! ### The requests that wait for a pass -/

theorem State.finishQueryVoice_moves {s : State} {r : Request} (busy : s.report.busy = some r) :
    s.Moves (State.finishQueryVoice r s) [.report, .freeCount] :=
  ((State.reply_moves busy r _).wider (by decide)).then (State.setFreeCount_goes _ _).moves (by decide)

theorem State.finishQueryStatus_moves {s : State} {r : Request} (busy : s.report.busy = some r) :
    s.Moves (State.finishQueryStatus r s) [.report, .freeCount] :=
  ((State.readOn_moves busy _ _).wider (by decide)).then (State.setFreeCount_goes _ _).moves (by decide)

theorem State.finishResync_moves {s : State} {r : Request} (busy : s.report.busy = some r) :
    s.Moves (State.finishResync r s) [.report, .cadence] :=
  (State.reply_after busy s.forceSearch_goes _).wider (by decide)

theorem State.finishConfigure_moves {s : State} {r : Request} (busy : s.report.busy = some r) :
    s.Moves (State.finishConfigure r s) [.report, .cadence] :=
  (State.reply_after busy s.configureTracker_goes _).wider (by decide)

/-- The parts that a soft reset changes. -/
abbrev resetParts : List Part := [.port, .report, .library, .voices, .nextOrder, .slots, .lanes, .cadence]

theorem State.softReset_changes (s : State) : s.ChangesOnly s.softReset resetParts := by
  intro p out
  cases p <;> first | exact absurd (by decide) out | rfl

theorem State.softReset_moves (s : State) : s.Moves s.softReset resetParts where
  only := s.softReset_changes
  keeps := s.softReset_keeps
  events := fun _ k => (Report.softReset_event _ k).symm ▸ EventRecord.clear_consistent _
  bounded := fun h => by simpa [Report.Bounded] using h.1

theorem State.finishReset_moves {s : State} {r : Request} (busy : s.report.busy = some r) :
    s.Moves (State.finishReset r s) resetParts :=
  (s.softReset_moves.then (State.reply_moves (q := r) (by simpa using busy) r _) (by decide)).then
    (State.dispatch_goes _).moves (by decide)

theorem State.betweenPasses_moves {s : State} {r : Request} {finish : Request → State → State} {ps : List Part}
    (h : s.Moves (finish r s) ps) : s.Moves (s.betweenPasses r finish) ps := by
  unfold State.betweenPasses
  split
  · exact .refl _ _
  · exact h

theorem State.configure_moves {s : State} {r : Request} (busy : s.report.busy = some r) :
    s.Moves (s.configure r) [.port, .report, .config, .cadence] := by
  unfold State.configure
  split
  · split
    · exact (State.reply_moves busy r _).wider (by decide)
    · have adopted := s.adopt_goes r
      exact (adopted.moves.wider (by decide)).then
        (State.betweenPasses_moves (State.finishConfigure_moves (adopted.report.busy.trans busy))) (by decide)
  · exact (State.reply_moves busy r _).wider (by decide)

/-- The parts that a request deferred to the completion of a pass changes. -/
abbrev deferredParts : List Part := .freeCount :: resetParts

theorem State.finishDeferred_moves (s : State) : s.Moves s.finishDeferred deferredParts := by
  unfold State.finishDeferred
  split
  case h_1 => exact .refl _ _
  case h_2 r busy =>
    unfold State.finishRequest
    split
    · exact (State.finishConfigure_moves busy).wider (by decide)
    split
    · exact (State.finishQueryVoice_moves busy).wider (by decide)
    split
    · exact (State.finishQueryStatus_moves busy).wider (by decide)
    split
    · exact (State.finishResync_moves busy).wider (by decide)
    split
    · exact (State.finishReset_moves busy).wider (by decide)
    · exact .refl _ _

/-! ### The tracker's commands and the completion of a pass -/

/-- The parts that a tick or an expiry changes. -/
abbrev tickParts : List Part := .report :: eventParts

theorem execTick_completes (elapsed : Nat) (s : State) : s.Completes (execTick elapsed s) tickParts := by
  unfold execTick
  split
  · exact s.completes_self _
  case h_2 n rest _ =>
    split
    · exact s.completes_self _
    · have timed : s.Moves ((s.passTime elapsed).setPort { s.port with handed := rest }) tickParts :=
        ((s.passTime_goes elapsed).moves.wider (by decide)).then (State.setPort_moves _ _ id) (by decide)
      dsimp only
      split
      · exact State.completes_next (timed.then (State.holdTick_goes _ _ _).moves (by decide))
      · refine State.completes_next ((timed.then (State.readBefore_moves (fun u => ?_) _) fun _ m => m).then
          (State.dispatch_goes _).moves (by decide))
        exact (((u.judgeTick_goes _ _).wider (by decide)).then (State.afterEvent_goes _) fun _ m => m).moves

theorem execLocalPeriodTimerExpiry_completes (s : State) : s.Completes (execLocalPeriodTimerExpiry s) tickParts := by
  unfold execLocalPeriodTimerExpiry
  split
  · exact s.completes_self _
  case h_2 expiry _ =>
    split
    · exact s.completes_self _
    · have expired : s.Moves (s.expireTimer expiry) tickParts := (s.setCadence_goes _).moves.wider (by decide)
      dsimp only
      split
      · exact State.completes_next (expired.then (State.setCadence_goes _ _).moves (by decide))
      · refine State.completes_next ((expired.then (State.readBefore_moves (fun u => ?_) _) fun _ m => m).then
          (State.dispatch_goes _).moves (by decide))
        exact ((u.judgeExpiry_goes.wider (by decide)).then (State.afterEvent_goes _) fun _ m => m).moves

/-- The parts that the completion of a pass changes. -/
abbrev passParts : List Part :=
  [.port, .report, .library, .voices, .nextOrder, .slots, .lanes, .cadence, .pass, .freeCount]

theorem State.takeDeferred_moves (s : State) (n : Nat) : s.Moves (s.takeDeferred n) deferredParts := by
  unfold State.takeDeferred
  split
  · exact (s.actOnLimit_goes.moves.wider (by decide)).then (State.finishDeferred_moves _) fun _ m => m
  · exact s.finishDeferred_moves.then (State.actOnLimit_goes _).moves (by decide)

theorem State.finishPass_moves (s : State) : s.Moves s.finishPass passParts := by
  unfold State.finishPass
  split
  · exact .refl _ _
  · exact ((((s.completePass_goes _).moves.wider (by decide)).then (State.takeDeferred_moves _ _) (by decide)).then
      (State.readBefore_moves (fun u => (State.takeAllWaiting_goes _ u).moves) _) (by decide)).then
      (State.dispatch_goes _).moves (by decide)

theorem execPassComplete_completes (elapsed : Nat) (s : State) : s.Completes (execPassComplete elapsed s) passParts := by
  unfold execPassComplete
  split
  · exact s.completes_self _
  · split
    · exact State.completes_next ((((s.passTime_goes elapsed).moves.wider (by decide)).then
        (State.renderRest_goes _ _).moves (by decide)).then (State.finishPass_moves _) fun _ m => m)
    · exact s.completes_self _

/-! ### The lanes' commands -/

theorem execReadCompletion_goesOn (l : LaneId) (number : Fin 32) (status : ReadStatus) (data : List Byte) (s : State) :
    s.GoesOn (execReadCompletion l number status data s) (.freeCount :: readParts) := by
  unfold execReadCompletion
  split
  · exact s.goesOn_self _
  split
  · exact s.goesOn_self _
  · exact State.goesOn_next (((s.releaseNumber_goes l number none).wider (by decide)).then
      (State.dispatch_goes _) (by decide))
  · split
    · exact State.goesOn_next ((((s.releaseNumber_goes l number none).wider (by decide)).then
        (State.resolveFailed_goes _ _ _ _ _ _) (by decide)).then (State.dispatch_goes _) (by decide))
    · exact State.goesOn_next (((((s.releaseNumber_goes l number none).wider (by decide)).then
        (State.resolveOk_goes _ _ _ _) (by decide)).then (State.useMissing_goes _ _ _) (by decide)).then
        (State.dispatch_goes _) (by decide))

theorem execReadTimeout_goesOn (l : LaneId) (number : Fin 32) (s : State) :
    s.GoesOn (execReadTimeout l number s) [.report, .library, .slots, .lanes] := by
  unfold execReadTimeout
  split
  · exact State.goesOn_next ((((s.releaseNumber_goes l number _).wider (by decide)).then
      (State.resolveFailed_goes _ _ _ _ _ _) (by decide)).then (State.dispatch_goes _) (by decide))
  · exact s.goesOn_self _
  · exact s.goesOn_self _

theorem execStaleHoldExpiry_goesOn (l : LaneId) (number : Fin 32) (s : State) :
    s.GoesOn (execStaleHoldExpiry l number s) [.slots, .lanes] := by
  unfold execStaleHoldExpiry
  split
  · exact State.goesOn_next (((s.releaseNumber_goes l number none).wider (by decide)).then
      (State.dispatch_goes _) (by decide))
  · exact s.goesOn_self _
  · exact s.goesOn_self _

theorem execErrorWindowEnd_goesOn (l : LaneId) (s : State) :
    s.GoesOn (execErrorWindowEnd l s) [.report, .lanes] := by
  unfold execErrorWindowEnd
  dsimp only
  split
  · exact s.goesOn_self _
  split
  · exact State.goesOn_next (((s.setLane_goes l _).wider (by decide)).then (State.raise_goes _ _)
      (by decide))
  · exact State.goesOn_next ((s.setLane_goes l _).wider (by decide))

theorem execPresenceLost_goesOn (l : LaneId) (s : State) : s.GoesOn (execPresenceLost l s) fetchParts := by
  unfold execPresenceLost
  dsimp only
  split
  · refine State.goesOn_next ((((((s.setLane_goes l _).wider (by decide)).then (State.raise_goes _ _)
      (by decide)).then (State.foldl_goes _ (fun t row => t.resolveOffline_goes l row) _ _) (by decide)).then
      (State.setLane_goes _ l _) (by decide)).then (State.loseQueue_goes _ _) (by decide) |>.then
      (State.dispatch_goes _) (by decide))
  · exact s.goesOn_self _

theorem execPresenceReturned_goesOn (l : LaneId) (s : State) :
    s.GoesOn (execPresenceReturned l s) fetchParts := by
  unfold execPresenceReturned
  dsimp only
  split
  · exact s.goesOn_self _
  · exact State.goesOn_next ((((s.setLane_goes l _).wider (by decide)).then (State.raise_goes _ _)
      (by decide)).then (State.dispatch_goes _) (by decide))

/-! ### The voice commands -/

/-- The parts that a voice item changes. -/
abbrev itemParts : List Part := .port :: requestParts

/-- R41: an item off its queue, carried out and finished. -/
theorem State.item_goes {s t : State} {i : VoiceItem} {rest : List VoiceItem} (queue : s.port.voiceQueue = i :: rest)
    (h : (s.popItem rest).Goes t requestParts) : s.Goes t.finishItem itemParts :=
  (((s.popItem_goes i rest queue).wider (by decide)).then h (by decide)).then (State.finishItem_goes _) (by decide)

theorem execVoiceStart_goesOn (s : State) : s.GoesOn (execVoiceStart s) itemParts := by
  unfold execVoiceStart
  split
  · exact s.goesOn_self _
  split
  case h_1 queue => exact State.goesOn_next (State.item_goes queue (State.takeStart_goes _ _ _ _ _ _ _ _))
  case h_2 => exact s.goesOn_self _

theorem execVoiceRelease_goesOn (s : State) : s.GoesOn (execVoiceRelease s) itemParts := by
  unfold execVoiceRelease
  split
  · exact s.goesOn_self _
  split
  case h_1 queue => exact State.goesOn_next (State.item_goes queue ((State.takeRelease_goes _ _ _ _).wider (by decide)))
  case h_2 => exact s.goesOn_self _

theorem execVoiceStop_goesOn (s : State) : s.GoesOn (execVoiceStop s) itemParts := by
  unfold execVoiceStop
  split
  · exact s.goesOn_self _
  split
  case h_1 queue => exact State.goesOn_next (State.item_goes queue ((State.takeStop_goes _ _).wider (by decide)))
  case h_2 => exact s.goesOn_self _

theorem execStopAll_goesOn (s : State) : s.GoesOn (execStopAll s) itemParts := by
  unfold execStopAll
  split
  · exact s.goesOn_self _
  split
  case h_1 queue => exact State.goesOn_next (State.item_goes queue ((State.takeStopAll_goes _).wider (by decide)))
  case h_2 => exact s.goesOn_self _

/-! ### The port's commands -/

theorem execPowerOn_completes (memory : Option (List Byte)) (present : PerLane Bool) (s : State) :
    s.Completes (execPowerOn memory present s) [.port, .report, .library, .voices, .nextOrder, .slots, .lanes, .cadence,
      .pass, .config] := by
  refine State.completes_next ⟨?_, ⟨id, fun _ => ?_, fun _ i => Nat.zero_lt_one, fun _ => ?_⟩, fun _ k => ?_, fun _ => ?_⟩
  · intro p out
    cases p <;> first | exact absurd (by decide) out | rfl
  · have initial : Port.initial.Bounded := by unfold Port.Bounded; decide
    unfold powerOnPort
    split
    · exact initial
    · split <;> exact initial
  · exact ⟨List.Pairwise.nil, fun _ _ _ _ hv => absurd hv (by simp [State.voice?, State.reset])⟩
  · exact ⟨rfl, Nat.zero_le _, fun _ => rfl⟩
  · exact ⟨Nat.zero_le _, Nat.zero_le _⟩

theorem execFrameReceived_goesOn (f : Frame) (s : State) : s.GoesOn (execFrameReceived f s) [.port, .report] := by
  unfold execFrameReceived
  split
  · split
    · exact State.goesOn_next (s.classify_goes f)
    · exact State.goesOn_next ((s.raise_goes _).wider (by decide))
  · exact s.goesOn_self _

theorem State.sendControl_moves (s : State) {f : ControlFrame} {rest : List ControlFrame}
    (h : s.report.control = f :: rest) : s.Moves (s.sendControl f rest) [.port, .report] := by
  have sent : s.Moves (s.setPort (s.port.send (s.port.destinationOf f) (controlPayload f))) [.port, .report] :=
    (s.setPort_moves (s.port.send (s.port.destinationOf f) (controlPayload f)) id).wider (by decide)
  refine sent.then (State.setReport_moves _ _ (Report.consistent_congr rfl) fun b => ⟨?_, b.2⟩) (by decide)
  have places : s.report.control.length + _ ≤ _ := b.1
  rw [h, List.length_cons, Nat.add_right_comm] at places
  exact (Nat.le_succ _).trans places

theorem State.sendData_goes (s : State) : s.Goes s.sendData [.port] := by
  unfold State.sendData
  split
  case h_1 => exact .refl _ _
  case h_2 f rest queue =>
    split
    · refine s.setPort_goes _ fun h => ?_
      obtain ⟨voice, ticks, mgmt, data, malformed⟩ := h
      rw [queue] at data
      exact ⟨voice, ticks, mgmt, (Nat.le_succ _).trans data, malformed⟩
    · exact .refl _ _

theorem execTransmitFrame_completes (s : State) : s.Completes (execTransmitFrame s) [.port, .report] := by
  unfold execTransmitFrame
  split
  · split
    case h_1 control => exact State.completes_next (s.sendControl_moves control)
    case h_2 => exact State.completes_next (s.sendData_goes.moves.wider (by decide))
  · exact s.completes_self _

theorem Report.placeHeld_bounded {r : Report} (free : 0 < r.freePlaces) (h : r.Bounded) : r.placeHeld.Bounded := by
  unfold Report.placeHeld
  dsimp only
  split
  · exact h
  · refine ⟨?_, h.2⟩
    have places := Report.freePlaces_pos.mp free
    rw [Report.fill, List.length_append, List.length_singleton, Nat.add_right_comm]
    exact places

theorem Report.placeHeld_events (r : Report) : r.placeHeld.events = r.events := by
  unfold Report.placeHeld
  dsimp only
  split <;> rfl

theorem execNoticeHeldQueued_completes (s : State) : s.Completes (execNoticeHeldQueued s) [.report] := by
  unfold execNoticeHeldQueued
  split
  case isTrue claim =>
    have free := of_decide_eq_true (Bool.and_eq_true_iff.mp claim).2
    exact State.completes_next (s.setReport_moves _ (Report.consistent_congr s.report.placeHeld_events)
      (Report.placeHeld_bounded free))
  case isFalse => exact s.completes_self _

theorem execEndListFlushOnRoom_completes (s : State) : s.Completes (execEndListFlushOnRoom s) [.report] := by
  unfold execEndListFlushOnRoom
  split
  case isTrue claim =>
    have free := of_decide_eq_true (Bool.and_eq_true_iff.mp claim).2
    exact State.completes_next (s.setReport_moves _ (Report.consistent_congr s.report.flushOne_events) fun h =>
      Report.flushOne_bounded h free)
  case isFalse => exact s.completes_self _

theorem Report.relist_bounded {r : Report} (h : r.Bounded) (wants : Bool) : (r.relist wants).Bounded := by
  unfold Report.relist
  split
  · exact h
  · split
    · exact Report.wantNotice_bounded (r := { r with noticeHeld := false }) h
    · exact h

theorem Report.relist_events (r : Report) (wants : Bool) : (r.relist wants).events = r.events := by
  unfold Report.relist
  split
  · rfl
  · split
    · exact Report.wantNotice_events _
    · rfl

theorem Report.linkDown_bounded {r : Report} (h : r.Bounded) : r.linkDown.Bounded := by
  have flushed : (r.putEvent .linkState ((r.event .linkState).occur (some (.linkState false)))).flushLink.Bounded :=
    ⟨(Nat.add_le_add_right (List.length_filter_le _ _) _).trans h.1, h.2⟩
  exact Report.relist_bounded flushed _

theorem Report.linkDown_consistent {r : Report} (h : r.EventsConsistent) : r.linkDown.EventsConsistent :=
  Report.consistent_congr (Report.relist_events _ _)
    (Report.consistent_congr rfl (Report.putEvent_consistent h (EventRecord.occur_consistent (r.event .linkState) _)))

theorem execLinkDown_completes (s : State) : s.Completes (execLinkDown s) [.port, .report] := by
  refine State.completes_next (((s.setPort_moves _ fun h => ?_).wider (by decide)).then
    (State.setReport_moves _ _ Report.linkDown_consistent Report.linkDown_bounded) (by decide))
  obtain ⟨voice, ticks, mgmt, -, malformed⟩ := h
  exact ⟨voice, ticks, mgmt, Nat.zero_le _, malformed⟩

theorem execLinkUp_goesOn (s : State) : s.GoesOn (execLinkUp s) [.port, .report] := by
  have up : s.Goes (s.setPort { s.port with linkUp := true }) [.port, .report] :=
    (s.setPort_goes { s.port with linkUp := true } id).wider (by decide)
  exact State.goesOn_next (up.then (State.raise_goes _ _) (by decide))

/-! ### Every command -/

/-- The parts of the state that a command may change. -/
def touched : Instr → List Part
  | .powerOn _ _ => [.port, .report, .library, .voices, .nextOrder, .slots, .lanes, .cadence, .pass, .config]
  | .voiceStart | .voiceRelease | .voiceStop | .stopAll => itemParts
  | .tick _ | .localPeriodTimerExpiry => tickParts
  | .passComplete _ => passParts
  | .readCompletion _ _ _ _ => .freeCount :: readParts
  | .readTimeout _ _ => [.report, .library, .slots, .lanes]
  | .staleHoldExpiry _ _ => [.slots, .lanes]
  | .errorWindowEnd _ => [.report, .lanes]
  | .presenceLost _ | .presenceReturned _ => fetchParts
  | .noticeHeldQueued | .endListFlushOnRoom => [.report]
  | .configure => [.port, .report, .config, .cadence]
  | .loadSample | .retireSample => [.port, .report, .library, .slots, .lanes]
  | .loadArticulation | .loadZones | .loadCurve | .loadMatrix => [.port, .report, .library]
  | .queryVoice | .queryStatus => [.port, .report, .freeCount]
  | .resync => [.port, .report, .cadence]
  | .reset => resetParts
  | .frameReceived _ | .linkDown | .linkUp | .transmitFrame | .badRequestReply | .querySample | .eventMask
  | .eventClear | .eventSet => [.port, .report]

theorem State.Completes.wider {s : State} {o : Host.Outcome State Fault Refusal} {ps qs : List Part}
    (h : s.Completes o ps) (m : ∀ p ∈ ps, p ∈ qs) : s.Completes o qs := by
  obtain ⟨t, next, moves⟩ := h
  exact ⟨t, next, moves.wider m⟩

/-- Every command completes, changes only what it may, and keeps the invariants. -/
theorem exec_completes (c : Instr) (s : State) : s.Completes (exec c s) (touched c) := by
  cases c with
  | powerOn memory present => exact execPowerOn_completes memory present s
  | frameReceived frame => exact (execFrameReceived_goesOn frame s).completes
  | voiceStart => exact (execVoiceStart_goesOn s).completes
  | voiceRelease => exact (execVoiceRelease_goesOn s).completes
  | voiceStop => exact (execVoiceStop_goesOn s).completes
  | stopAll => exact (execStopAll_goesOn s).completes
  | tick elapsed => exact execTick_completes elapsed s
  | localPeriodTimerExpiry => exact execLocalPeriodTimerExpiry_completes s
  | passComplete elapsed => exact execPassComplete_completes elapsed s
  | readCompletion lane number status data => exact (execReadCompletion_goesOn lane number status data s).completes
  | readTimeout lane number => exact (execReadTimeout_goesOn lane number s).completes
  | staleHoldExpiry lane number => exact (execStaleHoldExpiry_goesOn lane number s).completes
  | errorWindowEnd lane => exact (execErrorWindowEnd_goesOn lane s).completes
  | presenceLost lane => exact (execPresenceLost_goesOn lane s).completes
  | presenceReturned lane => exact (execPresenceReturned_goesOn lane s).completes
  | linkDown => exact execLinkDown_completes s
  | linkUp => exact (execLinkUp_goesOn s).completes
  | transmitFrame => exact execTransmitFrame_completes s
  | noticeHeldQueued => exact execNoticeHeldQueued_completes s
  | endListFlushOnRoom => exact execEndListFlushOnRoom_completes s
  | badRequestReply =>
    exact (State.serve_completes (ps := [.report]) fun r t busy => State.reply_moves busy r _).wider (by decide)
  | configure => exact (State.serve_completes fun r t busy => State.configure_moves busy).wider (by decide)
  | loadSample => exact (State.serve_completes fun r t busy => State.loadSample_moves busy).wider (by decide)
  | retireSample => exact (State.serve_completes fun r t busy => State.retireSample_moves busy).wider (by decide)
  | querySample => exact (State.serve_completes fun r t busy => State.reply_moves busy r _).wider (by decide)
  | loadArticulation =>
    exact (State.serve_completes fun r t busy => State.loadArticulation_moves busy).wider (by decide)
  | loadZones => exact (State.serve_completes fun r t busy => State.loadZones_moves busy).wider (by decide)
  | loadCurve => exact (State.serve_completes fun r t busy => State.loadCurve_moves busy).wider (by decide)
  | loadMatrix => exact (State.serve_completes fun r t busy => State.loadMatrix_moves busy).wider (by decide)
  | queryVoice =>
    exact (State.serve_completes fun r t busy =>
      State.betweenPasses_moves (State.finishQueryVoice_moves busy)).wider (by decide)
  | queryStatus =>
    exact (State.serve_completes fun r t busy =>
      State.betweenPasses_moves (State.finishQueryStatus_moves busy)).wider (by decide)
  | eventMask =>
    exact (State.serve_completes fun r t busy =>
      State.eventRequest_moves busy _ (maskWork_kept r.body t.report)).wider (by decide)
  | eventClear =>
    exact (State.serve_completes fun r t busy =>
      State.eventRequest_moves busy _ (clearWork_kept r.body t.report)).wider (by decide)
  | eventSet =>
    exact (State.serve_completes fun r t busy =>
      State.eventRequest_moves busy _ (setWork_kept r.body t.report)).wider (by decide)
  | resync =>
    exact (State.serve_completes fun r t busy =>
      State.betweenPasses_moves (State.finishResync_moves busy)).wider (by decide)
  | reset =>
    exact (State.serve_completes fun r t busy =>
      State.betweenPasses_moves (State.finishReset_moves busy)).wider (by decide)

/-- What a command does, of the state it leads to. -/
theorem exec_moves {c : Instr} {s t : State} (h : exec c s = .next t) : s.Moves t (touched c) := by
  obtain ⟨u, next, moves⟩ := exec_completes c s
  rw [h] at next
  cases next
  exact moves

/-- The parts that an idle step changes. -/
abbrev idleParts : List Part := .cadence :: .freeCount :: renderParts

theorem State.idle_moves (s : State) : s.Moves s.idle idleParts := by
  unfold State.idle
  split
  case h_1 r g reading => exact (State.readOn_moves (Report.reading?_some.mp reading).1 g 1).wider (by decide)
  case h_2 => exact s.idleOn_goes.moves

/-- A step is an idle step, or a command taken off the queue. -/
theorem step_cases {s t : State} (h : step s = .next t) :
    (s.pending = [] ∧ t = s.idle) ∨ ∃ c rest, s.pending = c :: rest ∧ exec c (s.setPending rest) = .next t := by
  unfold step at h
  split at h
  case h_1 empty => exact .inl ⟨empty, (Host.Outcome.next.inj h).symm⟩
  case h_2 c rest front => exact .inr ⟨c, rest, front, h⟩

/-- A property that the waiting commands do not matter to, that idle steps and commands keep, is kept by every step. -/
theorem step_keeps {P : State → Prop} (queue : ∀ (s : State) (q : List Instr), P s → P (s.setPending q))
    (idle : ∀ s : State, P s → P s.idle) (command : ∀ (c : Instr) (s t : State), P s → exec c s = .next t → P t)
    {s t : State} (holds : P s) (h : step s = .next t) : P t := by
  rcases step_cases h with ⟨-, rfl⟩ | ⟨c, rest, -, next⟩
  · exact idle s holds
  · exact command c _ t (queue s rest holds) next

theorem pending_not_touched (c : Instr) : Part.pending ∉ touched c := by
  cases c <;> exact of_decide_eq_true rfl

/-- Settles O2: every command's own lemma gives its next state, and none lists the queue among the parts it changes. -/
theorem queueKept : Obligations.QueueKept := by
  intro c s
  obtain ⟨t, next, moves⟩ := exec_completes c s
  exact ⟨t, next, moves.only.pending (pending_not_touched c)⟩

/-- Settles O5: DRAM changes by `Memory.write` alone, which keeps the form. -/
theorem memoryFormKept : Obligations.MemoryFormKept := fun _ _ holds h =>
  step_keeps (P := State.MemoryFormed) (fun _ _ => id) (fun s => s.idle_moves.keeps.memory)
    (fun _ _ _ holds next => (exec_moves next).keeps.memory holds) holds h

/-- Settles O6: an event record is written by an occurrence, a mask or a clearing alone, each of which leaves it
consistent. -/
theorem eventSetKept : Obligations.EventSetKept := fun _ _ holds h =>
  step_keeps (P := fun s => s.report.EventsConsistent) (fun _ _ => id) (fun s => s.idle_moves.events)
    (fun _ _ _ holds next => (exec_moves next).events holds) holds h

/-- Settles O7: each queue is asked for its room before anything joins it; a REPLY takes the place reserved for it. -/
theorem queueBoundsKept : Obligations.QueueBoundsKept := fun _ _ holds h =>
  step_keeps (P := State.QueuesBounded) (fun _ _ => id)
    (fun s holds => ⟨s.idle_moves.keeps.port holds.1, s.idle_moves.bounded holds.2⟩)
    (fun _ _ _ holds next => ⟨(exec_moves next).keeps.port holds.1, (exec_moves next).bounded holds.2⟩) holds h

/-- Settles O8: a cursor is written by an accepted start, modulo its count, and by a load, as 0. -/
theorem cursorsKept : Obligations.CursorsKept := fun _ _ holds h =>
  step_keeps (P := State.CursorsBelow) (fun _ _ => id) (fun s => s.idle_moves.keeps.cursors)
    (fun _ _ _ holds next => (exec_moves next).keeps.cursors holds) holds h

/-- Settles O9: a tag enters the records with an accepted start alone, which R42's check has found absent. -/
theorem tagsKept : Obligations.TagsKept := fun _ _ holds h =>
  step_keeps (P := State.TagsDistinct) (fun _ _ => id) (fun s => s.idle_moves.keeps.tags)
    (fun _ _ _ holds next => (exec_moves next).keeps.tags holds) holds h

end Sys2Proof.Machine
end

section
/-! SUPPORT. The link port over a step: its identity, which POWER_ON and CONFIGURE alone change, and its waiting blocks,
which the render engine alone makes. -/

namespace Sys2Proof.Machine

/-- The port keeps its identity and its partner, and output samples of 24 bits stay all that waits. -/
structure State.PortKept (s t : State) : Prop where
  station      : t.port.station = s.port.station
  etherType    : t.port.etherType = s.port.etherType
  memoryStatus : t.port.memoryStatus = s.port.memoryStatus
  partner      : t.port.partner = s.port.partner
  output       : s.OutputInRange → t.OutputInRange

theorem State.PortKept.trans {s t u : State} (h : s.PortKept t) (k : t.PortKept u) : s.PortKept u :=
  ⟨k.station.trans h.station, k.etherType.trans h.etherType, k.memoryStatus.trans h.memoryStatus,
    k.partner.trans h.partner, k.output ∘ h.output⟩

theorem State.portKept_of_eq {s t : State} (h : t.port = s.port) : s.PortKept t :=
  ⟨by rw [h], by rw [h], by rw [h], by rw [h], fun k => by rwa [State.OutputInRange, h]⟩

theorem State.PortKept.refl (s : State) : s.PortKept s := State.portKept_of_eq rfl

theorem State.Goes.portKept {s t : State} {ps : List Part} (h : s.Goes t ps) (n : Part.port ∉ ps) : s.PortKept t :=
  State.portKept_of_eq (h.only.port n)

theorem State.Moves.portKept {s t : State} {ps : List Part} (h : s.Moves t ps) (n : Part.port ∉ ps) : s.PortKept t :=
  State.portKept_of_eq (h.only.port n)

theorem State.putVoice_portKept (s : State) (v : Nat) (x : Voice) : s.PortKept (s.putVoice v x) :=
  State.portKept_of_eq rfl

theorem State.setCadence_portKept (s : State) (x : Cadence) : s.PortKept (s.setCadence x) :=
  State.portKept_of_eq rfl

theorem State.reply_portKept (s : State) (r : Request) (a : Answer) : s.PortKept (s.reply r a) :=
  State.portKept_of_eq rfl

theorem State.dispatch_portKept (s : State) : s.PortKept s.dispatch := s.dispatch_goes.portKept (by decide)

theorem State.foldl_portKept {α : Type} (f : State → α → State) (h : ∀ (s : State) (a : α), s.PortKept (f s a))
    (l : List α) (s : State) : s.PortKept (l.foldl f s) := by
  induction l generalizing s with
  | nil => exact .refl s
  | cons a rest ih => exact (h s a).trans (ih _)

/-- A data queue whose frames carry blocks that waited before carries samples of 24 bits as before. -/
theorem State.output_of_blocks {s t : State}
    (h : ∀ f ∈ t.port.dataQueue, ∃ g ∈ s.port.dataQueue, f.blocks = g.blocks) (k : s.OutputInRange) :
    t.OutputInRange := by
  intro f hf b hb
  obtain ⟨g, hg, same⟩ := h f hf
  exact k g hg b (same ▸ hb)

/-! ### A block offered -/

theorem saturate24_range (y : Int) : Is24Bit (saturate24 y) := by
  unfold Is24Bit saturate24
  omega

/-- R133: what the render engine makes is saturated. -/
theorem State.renderFrames_range (s : State) (v : Nat) (x : Voice) (e : SampleEntry) :
    ∀ y ∈ (s.renderFrames v x e).frames, Is24Bit y.1 ∧ Is24Bit y.2 := by
  intro y hy
  simp only [State.renderFrames, List.mem_map] at hy
  obtain ⟨_, ⟨_, -, rfl⟩, rfl⟩ := hy
  exact ⟨saturate24_range _, saturate24_range _⟩

/-- A block offered joins blocks that waited, or begins a frame of its own. -/
theorem offerBlock_blocks {limit : Nat} {period : PeriodIndex} {q r : List DataFrame} {b : Block}
    (h : offerBlock limit period q b = some r) : ∀ f ∈ r, ∀ c ∈ f.blocks, c = b ∨ ∃ g ∈ q, c ∈ g.blocks := by
  unfold offerBlock at h
  split at h
  case h_1 g isOpen =>
    cases h
    have last : g ∈ q := by
      unfold openFrame? at isOpen
      split at isOpen
      · cases isOpen
      case h_2 tail =>
        split at isOpen
        · cases isOpen
        · cases isOpen
          exact List.mem_of_getLast? tail
    intro f hf c hc
    rcases List.mem_append.mp hf with before | joined
    · exact .inr ⟨f, List.dropLast_subset q before, hc⟩
    · rw [List.mem_singleton.mp joined] at hc
      rcases List.mem_append.mp hc with old | new
      · exact .inr ⟨g, last, old⟩
      · exact .inl (List.mem_singleton.mp new)
  case h_2 =>
    split at h
    · cases h
      intro f hf c hc
      rcases List.mem_append.mp hf with before | begun
      · exact .inr ⟨f, before, hc⟩
      · rw [List.mem_singleton.mp begun] at hc
        exact .inl (List.mem_singleton.mp hc)
    · cases h

theorem State.offer_portKept (s : State) (q : PeriodIndex) {b : Block}
    (range : ∀ y ∈ b.frames, Is24Bit y.1 ∧ Is24Bit y.2) : s.PortKept (s.offer q b) := by
  unfold State.offer
  split
  · split
    case h_1 r taken =>
      refine ⟨rfl, rfl, rfl, rfl, fun waiting f hf c hc => ?_⟩
      rcases offerBlock_blocks taken f hf c hc with rfl | ⟨g, hg, old⟩
      · exact range
      · exact waiting g hg c old
    case h_2 => exact s.countDropped_goes.portKept (by decide)
  · exact .refl s

/-! ### The pass -/

theorem State.renderVoice_portKept (s : State) (q : PeriodIndex) (v : Nat) (x : Voice) (e : SampleEntry) :
    s.PortKept (s.renderVoice q v x e) := by
  unfold State.renderVoice
  dsimp only
  refine State.PortKept.trans ?_ ((State.settleVoice_goes _ _ _ _ _).portKept (by decide))
  refine State.PortKept.trans ?_ (State.putVoice_portKept _ _ _)
  have told := ((s.raiseBlockEvents_goes x q (s.renderFrames v (enterBlock s.config.period x e) e)).portKept
    (by decide)).trans ((State.passRendered_goes _ v (enterBlock s.config.period x e)).portKept (by decide))
  split
  · exact told.trans (State.offer_portKept _ _ (s.renderFrames_range v _ e))
  · exact told

theorem State.renderTurn_portKept (s : State) (q : PeriodIndex) (v : Nat) : s.PortKept (s.renderTurn q v) := by
  unfold State.renderTurn
  refine State.PortKept.trans ?_ ((State.passTurn_goes _ _).portKept (by decide))
  unfold State.renderRecord
  split
  · exact .refl s
  split
  · exact .refl s
  split
  · exact s.renderVoice_portKept _ _ _ _
  · exact .refl s

theorem State.renderTurns_portKept (s : State) (q : PeriodIndex) (l : List Nat) : s.PortKept (s.renderTurns q l) :=
  State.foldl_portKept _ (fun t v => t.renderTurn_portKept q v) l s

theorem State.beginPass_portKept (s : State) (q : PeriodIndex) : s.PortKept (s.beginPass q) :=
  (s.applyMatrices_goes.portKept (by decide)).trans (State.renderTurns_portKept _ _ _)

theorem State.afterEvent_portKept (s : State) : s.PortKept s.afterEvent := by
  unfold State.afterEvent
  split
  · exact s.beginPass_portKept _
  · exact s.actOnLimit_goes.portKept (by decide)

theorem State.tickTaken_portKept (s : State) (n : PeriodIndex) (a : Nat) : s.PortKept (s.judgeTick n a).afterEvent :=
  ((s.judgeTick_goes n a).portKept (by decide)).trans (State.afterEvent_portKept _)

theorem State.expiryTaken_portKept (s : State) : s.PortKept s.judgeExpiry.afterEvent :=
  (s.judgeExpiry_goes.portKept (by decide)).trans (State.afterEvent_portKept _)

theorem State.takeWaiting_portKept (s : State) (i : Waiting) : s.PortKept (s.takeWaiting i) := by
  cases i with
  | tick n a => exact s.tickTaken_portKept n a
  | expiry a => exact s.expiryTaken_portKept

theorem State.takeAllWaiting_portKept (n : Nat) (s : State) : s.PortKept (State.takeAllWaiting n s) := by
  induction n generalizing s with
  | zero => exact .refl s
  | succ n ih =>
    unfold State.takeAllWaiting
    split
    · exact .refl s
    split
    · exact .refl s
    case h_2 i rest _ =>
      exact ((s.setCadence_portKept _).trans (State.takeWaiting_portKept _ i)).trans (ih _)

theorem State.readBefore_portKept {take : State → State} (h : ∀ u : State, u.PortKept (take u)) (s : State) :
    s.PortKept (s.readBefore take) := by
  unfold State.readBefore
  split
  · exact (s.readOut_moves.portKept (by decide)).trans (h _)
  · exact h s

theorem closeOpenFrame_blocks (q : List DataFrame) : ∀ f ∈ closeOpenFrame q, ∃ g ∈ q, f.blocks = g.blocks := by
  intro f hf
  unfold closeOpenFrame at hf
  split at hf
  · exact ⟨f, hf, rfl⟩
  case h_2 g last =>
    rcases List.mem_append.mp hf with before | closed
    · exact ⟨f, List.dropLast_subset q before, rfl⟩
    · exact ⟨g, List.mem_of_getLast? last, by rw [List.mem_singleton.mp closed]⟩

theorem State.completePass_portKept (s : State) (p : Pass) : s.PortKept (s.completePass p) := by
  have closed : s.PortKept (s.setPort { s.port with dataQueue := closeOpenFrame s.port.dataQueue }) :=
    ⟨rfl, rfl, rfl, rfl, State.output_of_blocks (closeOpenFrame_blocks _)⟩
  have advanced := (closed.trans ((State.setPass_goes _ none).portKept (by decide))).trans
    (State.setCadence_portKept _ { s.cadence with horizon := some (p.period + 1) })
  have reported := advanced.trans ((State.completionReports_goes _ p).portKept (by decide))
  exact (reported.trans (State.dispatch_portKept _)).trans ((State.setFreeCount_goes _ _).portKept (by decide))

theorem State.softReset_portKept (s : State) : s.PortKept s.softReset :=
  ⟨rfl, rfl, rfl, rfl, fun _ _ hf => absurd hf List.not_mem_nil⟩

theorem State.finishReset_portKept (r : Request) (s : State) : s.PortKept (State.finishReset r s) :=
  (s.softReset_portKept.trans (State.reply_portKept _ r okAnswer)).trans (State.dispatch_portKept _)

theorem State.finishDeferred_portKept (s : State) : s.PortKept s.finishDeferred := by
  unfold State.finishDeferred
  split
  · exact .refl s
  case h_2 r busy =>
    unfold State.finishRequest
    split
    · exact (State.finishConfigure_moves busy).portKept (by decide)
    split
    · exact (State.finishQueryVoice_moves busy).portKept (by decide)
    split
    · exact (State.finishQueryStatus_moves busy).portKept (by decide)
    split
    · exact (State.finishResync_moves busy).portKept (by decide)
    split
    · exact s.finishReset_portKept r
    · exact .refl s

theorem State.takeDeferred_portKept (s : State) (n : Nat) : s.PortKept (s.takeDeferred n) := by
  unfold State.takeDeferred
  split
  · exact (s.actOnLimit_goes.portKept (by decide)).trans (State.finishDeferred_portKept _)
  · exact s.finishDeferred_portKept.trans ((State.actOnLimit_goes _).portKept (by decide))

theorem State.finishPass_portKept (s : State) : s.PortKept s.finishPass := by
  unfold State.finishPass
  split
  · exact .refl s
  · exact (((s.completePass_portKept _).trans (State.takeDeferred_portKept _ _)).trans
      (State.readBefore_portKept (fun u => State.takeAllWaiting_portKept _ u) _)).trans
      (State.dispatch_portKept _)

/-! ### The commands -/

/-- A command completes and keeps the port's identity and the range of its waiting samples. -/
def State.KeepsPort (s : State) (o : Host.Outcome State Fault Refusal) : Prop :=
  ∀ t, o = .next t → s.PortKept t

theorem State.keepsPort_next {s t : State} (h : s.PortKept t) : s.KeepsPort (.next t) := by
  intro u next
  cases next
  exact h

theorem State.keepsPort_self (s : State) : s.KeepsPort (.next s) := State.keepsPort_next (.refl s)

theorem State.handedOff_portKept (s : State) (rest : List HandedTick) :
    s.PortKept (s.setPort { s.port with handed := rest }) :=
  ⟨rfl, rfl, rfl, rfl, id⟩

theorem execTick_keepsPort (elapsed : Nat) (s : State) : s.KeepsPort (execTick elapsed s) := by
  unfold execTick
  split
  · exact s.keepsPort_self
  case h_2 n rest _ =>
    split
    · exact s.keepsPort_self
    · have timed : s.PortKept ((s.passTime elapsed).setPort { s.port with handed := rest }) :=
        (s.setCadence_portKept _).trans (State.handedOff_portKept _ rest)
      dsimp only
      split
      · exact State.keepsPort_next (timed.trans ((State.holdTick_goes _ _ _).portKept (by decide)))
      · exact State.keepsPort_next ((timed.trans (State.readBefore_portKept
          (fun u => u.tickTaken_portKept _ _) _)).trans (State.dispatch_portKept _))

theorem execLocalPeriodTimerExpiry_keepsPort (s : State) : s.KeepsPort (execLocalPeriodTimerExpiry s) := by
  unfold execLocalPeriodTimerExpiry
  split
  · exact s.keepsPort_self
  case h_2 expiry _ =>
    split
    · exact s.keepsPort_self
    · have expired : s.PortKept (s.expireTimer expiry) := State.portKept_of_eq rfl
      dsimp only
      split
      · exact State.keepsPort_next (State.portKept_of_eq rfl)
      · exact State.keepsPort_next ((expired.trans (State.readBefore_portKept
          (fun u => u.expiryTaken_portKept) _)).trans (State.dispatch_portKept _))

theorem execPassComplete_keepsPort (elapsed : Nat) (s : State) : s.KeepsPort (execPassComplete elapsed s) := by
  unfold execPassComplete
  split
  · exact s.keepsPort_self
  · split
    · have timed : s.PortKept (s.passTime elapsed) := State.portKept_of_eq rfl
      exact State.keepsPort_next ((timed.trans (State.renderTurns_portKept _ _ _)).trans (State.finishPass_portKept _))
    · exact s.keepsPort_self

/-- The item off the queue, and the ticks that it lets go. -/
theorem State.item_portKept {s t : State} (rest : List VoiceItem) (h : (s.popItem rest).Goes t requestParts) :
    s.PortKept t.finishItem := by
  have popped : s.PortKept (s.popItem rest) := ⟨rfl, rfl, rfl, rfl, id⟩
  have taken : t.PortKept (t.setPort (t.port.itemTaken t.cadence.clock)) := ⟨rfl, rfl, rfl, rfl, id⟩
  exact ((popped.trans (h.portKept (by decide))).trans taken).trans (State.dispatch_portKept _)

theorem execVoiceStart_keepsPort (s : State) : s.KeepsPort (execVoiceStart s) := by
  unfold execVoiceStart
  split
  · exact s.keepsPort_self
  split
  · exact State.keepsPort_next (State.item_portKept _ (State.takeStart_goes _ _ _ _ _ _ _ _))
  · exact s.keepsPort_self

theorem execVoiceRelease_keepsPort (s : State) : s.KeepsPort (execVoiceRelease s) := by
  unfold execVoiceRelease
  split
  · exact s.keepsPort_self
  split
  · exact State.keepsPort_next (State.item_portKept _ ((State.takeRelease_goes _ _ _ _).wider (by decide)))
  · exact s.keepsPort_self

theorem execVoiceStop_keepsPort (s : State) : s.KeepsPort (execVoiceStop s) := by
  unfold execVoiceStop
  split
  · exact s.keepsPort_self
  split
  · exact State.keepsPort_next (State.item_portKept _ ((State.takeStop_goes _ _).wider (by decide)))
  · exact s.keepsPort_self

theorem execStopAll_keepsPort (s : State) : s.KeepsPort (execStopAll s) := by
  unfold execStopAll
  split
  · exact s.keepsPort_self
  split
  · exact State.keepsPort_next (State.item_portKept _ ((State.takeStopAll_goes _).wider (by decide)))
  · exact s.keepsPort_self

theorem State.acceptItem_portKept (s : State) (i : StreamItem) : s.PortKept (s.acceptItem i) := by
  cases i with
  | voice i =>
    simp only [State.acceptItem, State.acceptVoiceItem]
    split
    · exact ⟨rfl, rfl, rfl, rfl, id⟩
    · exact State.portKept_of_eq rfl
  | tick n =>
    simp only [State.acceptItem, State.acceptTick]
    split
    · exact ⟨rfl, rfl, rfl, rfl, id⟩
    split
    · exact ⟨rfl, rfl, rfl, rfl, id⟩
    · exact State.portKept_of_eq rfl

theorem State.classify_portKept (s : State) (f : Frame) : s.PortKept (s.classify f) := by
  unfold State.classify
  split
  · unfold State.acceptStream
    split
    · exact ⟨rfl, rfl, rfl, rfl, id⟩
    · exact State.foldl_portKept _ State.acceptItem_portKept _ _
  · unfold State.acceptRequest
    split
    · exact ⟨rfl, rfl, rfl, rfl, id⟩
    · exact State.portKept_of_eq rfl

theorem execFrameReceived_keepsPort (f : Frame) (s : State) : s.KeepsPort (execFrameReceived f s) := by
  unfold execFrameReceived
  split
  · split
    · exact State.keepsPort_next (s.classify_portKept f)
    · exact State.keepsPort_next (State.portKept_of_eq rfl)
  · exact s.keepsPort_self

theorem execTransmitFrame_keepsPort (s : State) : s.KeepsPort (execTransmitFrame s) := by
  unfold execTransmitFrame
  split
  · split
    · exact State.keepsPort_next ⟨rfl, rfl, rfl, rfl, id⟩
    · refine State.keepsPort_next ?_
      unfold State.sendData
      split
      · exact .refl s
      case h_2 f rest queue =>
        split
        · refine ⟨rfl, rfl, rfl, rfl, State.output_of_blocks fun g hg => ⟨g, ?_, rfl⟩⟩
          exact queue ▸ List.mem_cons_of_mem f hg
        · exact .refl s
  · exact s.keepsPort_self

theorem State.beginRequest_portKept (s : State) (r : Request) : s.PortKept (s.beginRequest r) :=
  ⟨rfl, rfl, rfl, rfl, id⟩

theorem State.serve_keepsPort {s : State} {fits : Request → Bool} {f : Request → State → State}
    (h : ∀ (r : Request) (t : State), t.report.busy = some r → t.PortKept (f r t)) : s.KeepsPort (s.serve fits f) := by
  intro t next
  rcases State.serve_next next with rfl | ⟨r, -, -, -, -, rfl⟩
  · exact .refl t
  · exact (s.beginRequest_portKept r).trans (h r _ rfl)

theorem State.betweenPasses_portKept {s : State} {r : Request} {finish : Request → State → State}
    (h : s.PortKept (finish r s)) : s.PortKept (s.betweenPasses r finish) := by
  unfold State.betweenPasses
  split
  · exact .refl s
  · exact h

/-- POWER_ON and CONFIGURE apart, every command keeps the port's identity. -/
theorem exec_portKept {c : Instr} {s t : State} (notPowerOn : ∀ memory present, c ≠ .powerOn memory present)
    (notConfigure : c ≠ .configure) (next : exec c s = .next t) : s.PortKept t := by
  have moves := exec_moves next
  cases c with
  | powerOn memory present => exact absurd rfl (notPowerOn memory present)
  | configure => exact absurd rfl notConfigure
  | frameReceived frame => exact execFrameReceived_keepsPort frame s t next
  | voiceStart => exact execVoiceStart_keepsPort s t next
  | voiceRelease => exact execVoiceRelease_keepsPort s t next
  | voiceStop => exact execVoiceStop_keepsPort s t next
  | stopAll => exact execStopAll_keepsPort s t next
  | tick elapsed => exact execTick_keepsPort elapsed s t next
  | localPeriodTimerExpiry => exact execLocalPeriodTimerExpiry_keepsPort s t next
  | passComplete elapsed => exact execPassComplete_keepsPort elapsed s t next
  | readCompletion | readTimeout | staleHoldExpiry | errorWindowEnd | presenceLost | presenceReturned
  | noticeHeldQueued | endListFlushOnRoom => exact moves.portKept (of_decide_eq_true rfl)
  | linkDown =>
    cases next
    exact ⟨rfl, rfl, rfl, rfl, fun _ _ hf => absurd hf List.not_mem_nil⟩
  | linkUp =>
    cases next
    exact ⟨rfl, rfl, rfl, rfl, id⟩
  | transmitFrame => exact execTransmitFrame_keepsPort s t next
  | badRequestReply => exact State.serve_keepsPort (fun r u busy => (State.reply_moves busy r _).portKept (by decide)) t next
  | loadSample => exact State.serve_keepsPort (fun r u busy => (State.loadSample_moves busy).portKept (by decide)) t next
  | retireSample =>
    exact State.serve_keepsPort (fun r u busy => (State.retireSample_moves busy).portKept (by decide)) t next
  | querySample => exact State.serve_keepsPort (fun r u busy => (State.reply_moves busy r _).portKept (by decide)) t next
  | loadArticulation =>
    exact State.serve_keepsPort (fun r u busy => (State.loadArticulation_moves busy).portKept (by decide)) t next
  | loadZones => exact State.serve_keepsPort (fun r u busy => (State.loadZones_moves busy).portKept (by decide)) t next
  | loadCurve => exact State.serve_keepsPort (fun r u busy => (State.loadCurve_moves busy).portKept (by decide)) t next
  | loadMatrix => exact State.serve_keepsPort (fun r u busy => (State.loadMatrix_moves busy).portKept (by decide)) t next
  | queryVoice =>
    exact State.serve_keepsPort (fun r u busy =>
      (State.betweenPasses_moves (State.finishQueryVoice_moves busy)).portKept (by decide)) t next
  | queryStatus =>
    exact State.serve_keepsPort (fun r u busy =>
      (State.betweenPasses_moves (State.finishQueryStatus_moves busy)).portKept (by decide)) t next
  | eventMask =>
    exact State.serve_keepsPort (fun r u busy =>
      (State.eventRequest_moves busy _ (maskWork_kept r.body u.report)).portKept (by decide)) t next
  | eventClear =>
    exact State.serve_keepsPort (fun r u busy =>
      (State.eventRequest_moves busy _ (clearWork_kept r.body u.report)).portKept (by decide)) t next
  | eventSet =>
    exact State.serve_keepsPort (fun r u busy =>
      (State.eventRequest_moves busy _ (setWork_kept r.body u.report)).portKept (by decide)) t next
  | resync =>
    exact State.serve_keepsPort (fun r u busy =>
      (State.betweenPasses_moves (State.finishResync_moves busy)).portKept (by decide)) t next
  | reset =>
    exact State.serve_keepsPort (fun r u _ => State.betweenPasses_portKept (u.finishReset_portKept r)) t next

/-- R168: of the port a CONFIGURE changes the partner alone, and takes its request off. -/
theorem State.configure_port {s : State} {r : Request} (busy : s.report.busy = some r) :
    (s.configure r).port = s.port ∨ (s.configure r).port = { s.port with partner := some r.source } := by
  unfold State.configure
  split
  · split
    · exact .inl rfl
    · refine .inr ?_
      have adopted := s.adopt_goes r
      have finished : (s.adopt r).Moves ((s.adopt r).betweenPasses r State.finishConfigure) [.report, .cadence] :=
        State.betweenPasses_moves (State.finishConfigure_moves (adopted.report.busy.trans busy))
      rw [finished.only.port (by decide)]
      unfold State.adopt
      dsimp only
      split <;> rfl
  · exact .inl rfl

theorem execConfigure_port {s t : State} (next : execConfigure s = .next t) :
    (t.port.station = s.port.station ∧ t.port.etherType = s.port.etherType ∧
      t.port.memoryStatus = s.port.memoryStatus) ∧ t.port.dataQueue = s.port.dataQueue := by
  rcases State.serve_next next with rfl | ⟨r, -, -, -, -, rfl⟩
  · exact ⟨⟨rfl, rfl, rfl⟩, rfl⟩
  · rcases State.configure_port (s.beginRequest_busy r) with same | partner
    · rw [same]
      exact ⟨⟨rfl, rfl, rfl⟩, rfl⟩
    · rw [partner]
      exact ⟨⟨rfl, rfl, rfl⟩, rfl⟩

theorem config_not_touched {c : Instr} (notPowerOn : ∀ memory present, c ≠ .powerOn memory present)
    (notConfigure : c ≠ .configure) : Part.config ∉ touched c := by
  cases c with
  | powerOn memory present => exact absurd rfl (notPowerOn memory present)
  | configure => exact absurd rfl notConfigure
  | _ => exact of_decide_eq_true rfl

/-- Settles O14: CONFIGURE apart, the port's identity goes with `State.PortKept`, and no other command lists the
configuration among its parts. -/
theorem identityKept : Obligations.IdentityKept := by
  intro c s t next notPowerOn
  by_cases configures : c = .configure
  · subst configures
    exact ⟨(execConfigure_port next).1, fun not => absurd rfl not⟩
  · have kept := exec_portKept notPowerOn configures next
    exact ⟨⟨kept.station, kept.etherType, kept.memoryStatus⟩, fun _ =>
      ⟨kept.partner, (exec_moves next).only.config (config_not_touched notPowerOn configures)⟩⟩

theorem powerOnPort_dataQueue (memory : Option (List Byte)) : (powerOnPort memory).dataQueue = [] := by
  unfold powerOnPort
  split
  · rfl
  · split <;> rfl

theorem exec_output {c : Instr} {s t : State} (holds : s.OutputInRange) (next : exec c s = .next t) :
    t.OutputInRange := by
  by_cases powers : ∃ memory present, c = .powerOn memory present
  · obtain ⟨memory, present, rfl⟩ := powers
    cases next
    intro f hf
    rw [show _ = ([] : List DataFrame) from powerOnPort_dataQueue memory] at hf
    exact absurd hf List.not_mem_nil
  by_cases configures : c = .configure
  · subst configures
    rw [State.OutputInRange, (execConfigure_port next).2]
    exact holds
  · exact (exec_portKept (fun memory present is => powers ⟨memory, present, is⟩) configures next).output holds

theorem State.idle_portKept (s : State) : s.PortKept s.idle := by
  unfold State.idle
  split
  case h_1 reading => exact (State.readOn_moves (Report.reading?_some.mp reading).1 _ 1).portKept (by decide)
  case h_2 =>
    unfold State.idleOn
    split
    · exact .refl s
    split
    · exact State.portKept_of_eq rfl
    split
    · exact State.portKept_of_eq rfl
    · exact (((s.renderTurn_portKept _ _).trans (State.setCadence_portKept _ _)).trans
        ((State.setFreeCount_goes _ _).portKept (by decide))).trans (State.dispatch_portKept _)

/-- Settles O11: a block joins the data queue by the render engine's offer alone, and stage 4 has saturated it. -/
theorem outputRangeKept : Obligations.OutputRangeKept := fun _ _ holds h =>
  step_keeps (P := State.OutputInRange) (fun _ _ => id) (fun s => s.idle_portKept.output)
    (fun _ _ _ => exec_output) holds h

end Sys2Proof.Machine
end

section
/-! SUPPORT. The pass under way and the reading of a QUERY_STATUS over a step: a pass is opened for the render horizon by
a running tracker, and a reading is begun between passes and ended before the next is opened. -/

namespace Sys2Proof.Machine

/-! ### A pass that goes on -/

theorem State.passHolds_of_none {s : State} (h : s.pass = none) : s.PassHolds := by
  intro p under
  rw [h] at under
  cases under

/-- The pass and what it rests on are as they were. -/
theorem State.PassHolds.of_eq {s t : State} (holds : s.PassHolds) (pass : t.pass = s.pass)
    (state : t.cadence.state = s.cadence.state) (horizon : t.cadence.horizon = s.cadence.horizon) : t.PassHolds := by
  intro p under
  rw [state, horizon]
  exact holds p (pass ▸ under)

theorem State.PassHolds.only {s t : State} {ps : List Part} (holds : s.PassHolds) (h : s.ChangesOnly t ps)
    (pass : Part.pass ∉ ps) (cadence : Part.cadence ∉ ps) : t.PassHolds :=
  holds.of_eq (h.pass pass) (by rw [h.cadence cadence]) (by rw [h.cadence cadence])

/-- A pass that is under way goes on for the period that it was opened for, the tracker at rest. -/
structure State.SamePeriod (s t : State) : Prop where
  cadence : t.cadence = s.cadence
  period  : ∀ p, t.pass = some p → ∃ q, s.pass = some q ∧ q.period = p.period

theorem State.SamePeriod.trans {s t u : State} (h : s.SamePeriod t) (k : t.SamePeriod u) : s.SamePeriod u := by
  refine ⟨k.cadence.trans h.cadence, fun p under => ?_⟩
  obtain ⟨q, underT, same⟩ := k.period p under
  obtain ⟨r, underS, earlier⟩ := h.period q underT
  exact ⟨r, underS, earlier.trans same⟩

theorem State.ChangesOnly.samePeriod {s t : State} {ps : List Part} (h : s.ChangesOnly t ps) (pass : Part.pass ∉ ps)
    (cadence : Part.cadence ∉ ps) : s.SamePeriod t :=
  ⟨h.cadence cadence, fun p under => ⟨p, (h.pass pass) ▸ under, rfl⟩⟩

theorem State.SamePeriod.refl (s : State) : s.SamePeriod s := ⟨rfl, fun p under => ⟨p, under, rfl⟩⟩

theorem State.SamePeriod.passHolds {s t : State} (h : s.SamePeriod t) (holds : s.PassHolds) : t.PassHolds := by
  intro p under
  obtain ⟨q, underS, same⟩ := h.period p under
  rw [h.cadence, ← same]
  exact holds q underS

/-- The record of the pass under way rewritten under its own period. -/
theorem State.setPass_samePeriod {s : State} {p : Pass} (under : s.pass = some p) {q : Pass} (same : q.period = p.period) :
    s.SamePeriod (s.setPass (some q)) := by
  refine ⟨rfl, fun r is => ⟨p, under, ?_⟩⟩
  cases is
  exact same.symm

theorem State.countDropped_samePeriod (s : State) : s.SamePeriod s.countDropped := by
  unfold State.countDropped
  split
  · exact .refl s
  case h_2 under => exact State.setPass_samePeriod under rfl

theorem State.offer_samePeriod (s : State) (q : PeriodIndex) (b : Block) : s.SamePeriod (s.offer q b) := by
  unfold State.offer
  split
  · split
    · exact (s.setPort_changes _).samePeriod (by decide) (by decide)
    · exact s.countDropped_samePeriod
  · exact .refl s

theorem State.passRendered_samePeriod (s : State) (v : Nat) (x : Voice) : s.SamePeriod (s.passRendered v x) := by
  unfold State.passRendered
  split
  · exact .refl s
  case h_2 k _ =>
    have freed := (s.passChunk_goes v x k).only.samePeriod (by decide) (by decide)
    dsimp only
    split
    · exact freed
    case h_2 under => exact freed.trans (State.setPass_samePeriod under rfl)

theorem State.renderVoice_samePeriod (s : State) (q : PeriodIndex) (v : Nat) (x : Voice) (e : SampleEntry) :
    s.SamePeriod (s.renderVoice q v x e) := by
  unfold State.renderVoice
  dsimp only
  refine State.SamePeriod.trans ?_ ((State.settleVoice_goes _ _ _ _ _).only.samePeriod (by decide) (by decide))
  refine State.SamePeriod.trans ?_ ((State.setVoices_changes _ _).samePeriod (by decide) (by decide))
  have told := ((s.raiseBlockEvents_goes x q (s.renderFrames v (enterBlock s.config.period x e) e)).only.samePeriod
    (by decide) (by decide)).trans (State.passRendered_samePeriod _ v (enterBlock s.config.period x e))
  split
  · exact told.trans (State.offer_samePeriod _ _ _)
  · exact told

theorem State.renderTurn_samePeriod (s : State) (q : PeriodIndex) (v : Nat) : s.SamePeriod (s.renderTurn q v) := by
  have record : s.SamePeriod (s.renderRecord q v) := by
    unfold State.renderRecord
    split
    · exact .refl s
    split
    · exact .refl s
    split
    · exact s.renderVoice_samePeriod _ _ _ _
    · exact .refl s
  refine record.trans ?_
  unfold State.renderTurn State.passTurn
  split
  · exact .refl _
  case h_2 under => exact State.setPass_samePeriod under rfl

theorem State.renderTurns_samePeriod (s : State) (q : PeriodIndex) (l : List Nat) : s.SamePeriod (s.renderTurns q l) := by
  unfold State.renderTurns
  induction l generalizing s with
  | nil => exact .refl s
  | cons v rest ih => exact (s.renderTurn_samePeriod q v).trans (ih _)

theorem State.beginPass_samePeriod (s : State) (q : PeriodIndex) : s.SamePeriod (s.beginPass q) :=
  (s.applyMatrices_goes.only.samePeriod (by decide) (by decide)).trans (State.renderTurns_samePeriod _ _ _)

/-! ### The tracker -/

@[simp] theorem Cadence.countOpening_state (c : Cadence) (w : Nat) : (c.countOpening w).state = c.state := by
  unfold Cadence.countOpening
  dsimp only
  split <;> split <;> rfl

@[simp] theorem Cadence.countOpening_horizon (c : Cadence) (w : Nat) : (c.countOpening w).horizon = c.horizon := by
  unfold Cadence.countOpening
  dsimp only
  split <;> split <;> rfl

theorem State.tickError_cadence (s : State) :
    s.tickError.cadence = (s.cadence.countError s.trackerConfig.errorLimit).countSevere := by
  unfold State.tickError
  dsimp only
  split
  · rfl
  · split <;> rfl

theorem State.tickError_state (s : State) : s.tickError.cadence.state = s.cadence.state := by
  rw [s.tickError_cadence]
  rfl

theorem State.tickError_horizon (s : State) : s.tickError.cadence.horizon = s.cadence.horizon := by
  rw [s.tickError_cadence]
  rfl

theorem State.tickError_pass (s : State) : s.tickError.pass = s.pass := s.tickError_goes.only.pass (by decide)

/-- R106: a running tracker opens the pass of its render horizon. -/
theorem State.openPass_passHolds {s : State} {q : PeriodIndex} (running : s.cadence.state.running = true)
    (horizon : s.cadence.horizon = some q) {wait : Nat} : (s.openPass q wait).PassHolds := by
  intro p under
  cases under
  exact ⟨(congrArg CadenceState.running (s.cadence.countOpening_state _)).trans running,
    (s.cadence.countOpening_horizon _).trans horizon⟩

/-- R108 to R110: a lock opens the pass of the horizon that it keeps or sets. -/
theorem State.lock_passHolds (s : State) (n : PeriodIndex) : (s.lock n).PassHolds := by
  unfold State.lock
  dsimp only
  split
  case h_1 =>
    have judged (t : State) (q : PeriodIndex) := (t.judgeAllLate_goes q).only.cadence (by decide)
    exact State.openPass_passHolds (by rw [judged]; rfl) (by rw [judged]; rfl)
  case h_2 q horizon =>
    split
    · refine State.openPass_passHolds ?_ ?_
      · rfl
      · exact horizon
    · have ended (t : State) := t.endAllVoices_goes.only.cadence (by decide)
      refine State.openPass_passHolds ?_ rfl
      show CadenceState.running (State.endAllVoices _).cadence.state = true
      rw [ended]
      rfl

theorem State.judgeCandidate_passHolds {s : State} (idle : s.pass = none) {n : PeriodIndex} {a : Nat} :
    (s.judgeCandidate n a).PassHolds := by
  unfold State.judgeCandidate
  split
  · exact State.passHolds_of_none idle
  · split
    · exact s.lock_passHolds n
    · exact State.passHolds_of_none idle

theorem State.expectedTick_passHolds {s : State} {q : PeriodIndex} (running : s.cadence.state.running = true)
    (horizon : s.cadence.horizon = some q) {a : Nat} : (s.expectedTick q a).PassHolds := by
  have returned {t : State} (run : t.cadence.state.running = true) (hor : t.cadence.horizon = some q) {w : Nat} :
      (t.returnToLocked.openPass q w).PassHolds := by
    unfold State.returnToLocked
    split
    · refine State.openPass_passHolds ?_ ?_
      · rfl
      · exact hor
    · refine State.openPass_passHolds ?_ ?_
      · exact run
      · exact hor
  unfold State.expectedTick
  dsimp only
  split
  · exact returned running horizon
  · exact returned (s.tickError_state ▸ running) (s.tickError_horizon ▸ horizon)

theorem State.judgeRunning_passHolds {s : State} (idle : s.pass = none) (running : s.cadence.state.running = true)
    {n : PeriodIndex} {a : Nat} : (s.judgeRunning n a).PassHolds := by
  unfold State.judgeRunning
  split
  · exact State.passHolds_of_none idle
  case h_2 horizon =>
    split
    · exact State.expectedTick_passHolds running horizon
    · exact State.passHolds_of_none (((s.otherTick_goes _ _).only.pass (by decide)).trans idle)

theorem State.judgeTick_passHolds {s : State} (idle : s.pass = none) {n : PeriodIndex} {a : Nat} :
    (s.judgeTick n a).PassHolds := by
  unfold State.judgeTick
  dsimp only
  split
  · exact State.passHolds_of_none idle
  · exact State.passHolds_of_none idle
  · refine State.judgeCandidate_passHolds ?_
    exact idle
  case h_4 locked =>
    refine State.judgeRunning_passHolds ?_ ?_
    · exact idle
    · simp [CadenceState.running, locked]
  case h_5 holdover =>
    refine State.judgeRunning_passHolds ?_ ?_
    · exact idle
    · simp [CadenceState.running, holdover]

theorem State.coverMissed_passHolds {s : State} {q : PeriodIndex} (running : s.cadence.state.running = true)
    (horizon : s.cadence.horizon = some q) : (s.coverMissed q).PassHolds := by
  unfold State.coverMissed
  dsimp only
  split
  · refine State.openPass_passHolds ?_ ?_
    · rfl
    · exact (State.tickError_horizon _).trans horizon
  · refine State.openPass_passHolds ?_ ?_
    · exact (congrArg CadenceState.running (State.tickError_state _)).trans running
    · exact (State.tickError_horizon _).trans horizon

theorem State.enterLost_pass (s : State) : s.enterLost.pass = s.pass := by
  unfold State.enterLost
  dsimp only
  split
  · rfl
  · exact (State.endAllVoices_goes _).only.pass (by decide)

theorem State.judgeExpiry_passHolds {s : State} (idle : s.pass = none) : s.judgeExpiry.PassHolds := by
  have lost : s.enterLost.PassHolds := State.passHolds_of_none (s.enterLost_pass.trans idle)
  unfold State.judgeExpiry
  split
  case h_1 locked horizon =>
    split
    · exact State.coverMissed_passHolds (by rw [locked]; rfl) horizon
    · exact lost
  case h_2 holdover horizon =>
    split
    · exact State.coverMissed_passHolds (by rw [holdover]; rfl) horizon
    · exact lost
  case h_3 => exact State.passHolds_of_none idle

theorem State.afterEvent_passHolds {s : State} (holds : s.PassHolds) : s.afterEvent.PassHolds := by
  unfold State.afterEvent
  split
  · exact (s.beginPass_samePeriod _).passHolds holds
  case h_2 idle => exact State.passHolds_of_none ((s.actOnLimit_goes.only.pass (by decide)).trans idle)

theorem State.tickTaken_passHolds {s : State} (idle : s.pass = none) {n : PeriodIndex} {a : Nat} :
    (s.judgeTick n a).afterEvent.PassHolds :=
  State.afterEvent_passHolds (State.judgeTick_passHolds idle)

theorem State.expiryTaken_passHolds {s : State} (idle : s.pass = none) : s.judgeExpiry.afterEvent.PassHolds :=
  State.afterEvent_passHolds (State.judgeExpiry_passHolds idle)

theorem State.takeWaiting_passHolds {s : State} (idle : s.pass = none) {i : Waiting} : (s.takeWaiting i).PassHolds := by
  cases i with
  | tick n a => exact State.tickTaken_passHolds idle
  | expiry a => exact State.expiryTaken_passHolds idle

theorem State.not_passUnderWay {s : State} : ¬s.passUnderWay = true ↔ s.pass = none := by
  simp [State.passUnderWay]

theorem State.takeAllWaiting_passHolds {n : Nat} {s : State} (holds : s.PassHolds) :
    (State.takeAllWaiting n s).PassHolds := by
  induction n generalizing s with
  | zero => exact holds
  | succ n ih =>
    unfold State.takeAllWaiting
    split
    · exact holds
    case isFalse idle =>
      split
      · exact holds
      · refine ih (State.takeWaiting_passHolds ?_)
        exact State.not_passUnderWay.mp idle

/-- The fields that are left are read in the state that the event meets, so between passes too. -/
theorem State.readBefore_passHolds {take : State → State} (h : ∀ u : State, u.pass = none → (take u).PassHolds) {s : State}
    (idle : s.pass = none) : (s.readBefore take).PassHolds := by
  unfold State.readBefore
  split
  · exact h _ ((s.readOut_changes.pass (by decide)).trans idle)
  · exact h s idle

/-! ### The commands -/

theorem execTick_passHolds {elapsed : Nat} {s t : State} (holds : s.PassHolds) (next : execTick elapsed s = .next t) :
    t.PassHolds := by
  unfold execTick at next
  split at next
  · cases next; exact holds
  case h_2 n rest _ =>
    split at next
    · cases next; exact holds
    · dsimp only at next
      split at next
      · cases next
        unfold State.holdTick
        split
        · exact holds.of_eq rfl rfl rfl
        split
        · exact holds.of_eq (State.tickError_pass _) (State.tickError_state _) (State.tickError_horizon _)
        · exact holds.of_eq rfl rfl rfl
      case isFalse idle =>
        cases next
        refine State.PassHolds.only ?_ (State.dispatch_goes _).only (by decide) (by decide)
        exact State.readBefore_passHolds (fun u rest => State.tickTaken_passHolds rest)
          (State.not_passUnderWay.mp idle)

theorem execLocalPeriodTimerExpiry_passHolds {s t : State} (holds : s.PassHolds)
    (next : execLocalPeriodTimerExpiry s = .next t) : t.PassHolds := by
  unfold execLocalPeriodTimerExpiry at next
  split at next
  · cases next; exact holds
  · split at next
    · cases next; exact holds
    · dsimp only at next
      split at next
      · cases next
        exact holds.of_eq rfl rfl rfl
      case isFalse idle =>
        cases next
        refine State.PassHolds.only ?_ (State.dispatch_goes _).only (by decide) (by decide)
        exact State.readBefore_passHolds (fun u rest => State.expiryTaken_passHolds rest)
          (State.not_passUnderWay.mp idle)

theorem State.completePass_pass (s : State) (p : Pass) : (s.completePass p).pass = none := by
  unfold State.completePass
  dsimp only
  rw [State.setFreeCount_pass, (State.dispatch_goes _).only.pass (by decide),
    (State.completionReports_goes _ p).only.pass (by decide)]
  rfl

theorem State.finishPass_passHolds {s : State} (holds : s.PassHolds) : s.finishPass.PassHolds := by
  unfold State.finishPass
  split
  · exact holds
  case h_2 p _ =>
    refine State.PassHolds.only ?_ (State.dispatch_goes _).only (by decide) (by decide)
    refine State.readBefore_passHolds (fun u idle => State.takeAllWaiting_passHolds (State.passHolds_of_none idle)) ?_
    exact ((State.takeDeferred_moves _ _).only.pass (by decide)).trans (s.completePass_pass p)

theorem execPassComplete_passHolds {elapsed : Nat} {s t : State} (holds : s.PassHolds)
    (next : execPassComplete elapsed s = .next t) : t.PassHolds := by
  unfold execPassComplete at next
  split at next
  · cases next; exact holds
  · split at next
    · cases next
      have timed : (s.passTime elapsed).PassHolds := holds.of_eq rfl rfl rfl
      exact State.finishPass_passHolds ((State.renderTurns_samePeriod _ _ _).passHolds timed)
    · cases next; exact holds

/-- A management command whose own effect keeps the pass, whatever the request. -/
theorem State.serve_passHolds {s t : State} {fits : Request → Bool} {f : Request → State → State} (holds : s.PassHolds)
    (h : ∀ (r : Request) (u : State), u.report.busy = some r → u.PassHolds → (f r u).PassHolds)
    (next : s.serve fits f = .next t) : t.PassHolds := by
  rcases State.serve_next next with rfl | ⟨r, -, -, -, -, rfl⟩
  · exact holds
  · exact h r _ rfl (holds.of_eq rfl rfl rfl)

theorem State.betweenPasses_passHolds {s : State} {r : Request} {finish : Request → State → State} (holds : s.PassHolds)
    (same : (finish r s).pass = s.pass) : (s.betweenPasses r finish).PassHolds := by
  unfold State.betweenPasses
  split
  · exact holds
  case isFalse idle => exact State.passHolds_of_none (same.trans (State.not_passUnderWay.mp idle))

theorem State.configure_passHolds {s : State} {r : Request} (busy : s.report.busy = some r) (holds : s.PassHolds) :
    (s.configure r).PassHolds := by
  unfold State.configure
  split
  · split
    · exact holds.of_eq rfl rfl rfl
    · have adopted : (s.adopt r).PassHolds := by
        unfold State.adopt
        dsimp only
        split <;> exact holds.of_eq rfl rfl rfl
      have stillBusy := (s.adopt_goes r).report.busy.trans busy
      exact State.betweenPasses_passHolds adopted ((State.finishConfigure_moves stillBusy).only.pass (by decide))
  · exact holds.of_eq rfl rfl rfl

theorem exec_passHolds {c : Instr} {s t : State} (holds : s.PassHolds) (next : exec c s = .next t) : t.PassHolds := by
  have only := (exec_moves next).only
  cases c with
  | powerOn => cases next; exact State.passHolds_of_none rfl
  | tick => exact execTick_passHolds holds next
  | localPeriodTimerExpiry => exact execLocalPeriodTimerExpiry_passHolds holds next
  | passComplete => exact execPassComplete_passHolds holds next
  | configure => exact State.serve_passHolds holds (fun r u busy => State.configure_passHolds busy) next
  | resync =>
    exact State.serve_passHolds holds (fun r u busy under =>
      State.betweenPasses_passHolds under ((State.finishResync_moves busy).only.pass (by decide))) next
  | reset =>
    exact State.serve_passHolds holds (fun r u busy under =>
      State.betweenPasses_passHolds under ((State.finishReset_moves busy).only.pass (by decide))) next
  | _ => exact holds.only only (of_decide_eq_true rfl) (of_decide_eq_true rfl)

theorem State.idle_passHolds {s : State} (holds : s.PassHolds) : s.idle.PassHolds := by
  unfold State.idle
  split
  · exact holds.only (s.readOn_changes _ _ 1) (by decide) (by decide)
  · unfold State.idleOn
    split
    · exact holds
    split
    · exact holds.of_eq rfl rfl rfl
    split
    · exact holds.of_eq rfl rfl rfl
    case h_2 p _ _ v _ _ =>
      have turned := (s.renderTurn_samePeriod p.period v).passHolds holds
      refine State.PassHolds.only ?_ (State.dispatch_goes _).only (by decide) (by decide)
      exact turned.of_eq rfl rfl rfl

/-! ### The reading of a QUERY_STATUS -/

theorem State.readBetween_of_none {s : State} (h : s.report.reading = none) : s.ReadBetween := by
  intro g reading
  rw [h] at reading
  cases reading

theorem State.ReadBetween.of_eq {s t : State} (holds : s.ReadBetween) (pass : t.pass = s.pass)
    (reading : t.report.reading = s.report.reading) (busy : t.report.busy = s.report.busy) : t.ReadBetween := by
  intro g is
  rw [pass, busy]
  exact holds g (reading ▸ is)

theorem State.ReadBetween.goes {s t : State} {ps : List Part} (holds : s.ReadBetween) (h : s.Goes t ps)
    (pass : Part.pass ∉ ps) : t.ReadBetween :=
  holds.of_eq (h.only.pass pass) h.report.reading h.report.busy

/-- R172: while a pass is under way nothing is read. -/
theorem State.ReadBetween.none_of_pass {s : State} (holds : s.ReadBetween) {p : Pass} (under : s.pass = some p) :
    s.report.reading = none := by
  by_contra some
  obtain ⟨g, reading⟩ := Option.ne_none_iff_exists'.mp some
  obtain ⟨idle, -⟩ := holds g reading
  rw [under] at idle
  cases idle

/-- R164: while the unit is IDLE nothing is read. -/
theorem State.ReadBetween.none_of_idle {s : State} (holds : s.ReadBetween) (idle : s.report.busy = none) :
    s.report.reading = none := by
  by_contra some
  obtain ⟨g, reading⟩ := Option.ne_none_iff_exists'.mp some
  obtain ⟨-, -, -, r, busy, -⟩ := holds g reading
  rw [idle] at busy
  cases busy

theorem State.ReadBetween.reading?_none {s : State} (holds : s.ReadBetween) (h : s.report.reading? = none) :
    s.report.reading = none :=
  (Report.reading?_none.mp h).elim holds.none_of_idle id

/-- R172: a reading goes on, a suffix of the layout's parts left, or is over. -/
theorem State.readOn_readBetween {s : State} {r : Request} {g : StatusReading} (idle : s.pass = none)
    (busy : s.report.busy = some r) (kind : r.kind = kindQueryStatus) (suffix : g.left <:+ statusParts) (n : Nat) :
    (s.readOn r g n).ReadBetween := by
  rcases s.readOn_cases r g n with ⟨more, left, fewer, e⟩ | ⟨told, e⟩ <;> rw [e]
  · intro h is
    cases is
    exact ⟨idle, left, fewer.trans suffix, r, busy, kind⟩
  · exact State.readBetween_of_none rfl

theorem State.readOut_reading {s : State} (holds : s.ReadBetween) : s.readOut.report.reading = none := by
  cases h : s.report.reading? with
  | none => rw [State.readOut_none h, holds.reading?_none h]
  | some q =>
    rw [State.readOut_some (r := q.1) (g := q.2) h, State.readOn_last _ _ _ _ le_rfl]
    rfl

/-- R172: what opens a pass finds every field read. -/
theorem State.readBefore_readBetween {take : State → State} {ps : List Part} (h : ∀ u : State, u.Goes (take u) ps)
    {s : State} (holds : s.ReadBetween) : (s.readBefore take).ReadBetween := by
  unfold State.readBefore
  split
  · exact State.readBetween_of_none ((h _).report.reading.trans (State.readOut_reading holds))
  case isFalse idle =>
    intro g reading
    obtain ⟨-, left, suffix, r, busy, kind⟩ := holds g ((h s).report.reading ▸ reading)
    exact ⟨State.not_passUnderWay.mp idle, left, suffix, r, (h s).report.busy.trans busy, kind⟩

theorem State.tickTaken_goes (u : State) (n : PeriodIndex) (a : Nat) : u.Goes (u.judgeTick n a).afterEvent eventParts :=
  ((u.judgeTick_goes n a).wider (by decide)).then (State.afterEvent_goes _) fun _ m => m

theorem State.expiryTaken_goes (u : State) : u.Goes u.judgeExpiry.afterEvent eventParts :=
  (u.judgeExpiry_goes.wider (by decide)).then (State.afterEvent_goes _) fun _ m => m

theorem execTick_readBetween {elapsed : Nat} {s t : State} (holds : s.ReadBetween) (next : execTick elapsed s = .next t) :
    t.ReadBetween := by
  unfold execTick at next
  split at next
  · cases next; exact holds
  case h_2 n rest _ =>
    split at next
    · cases next; exact holds
    · have timed : ((s.passTime elapsed).setPort { s.port with handed := rest }).ReadBetween := holds.of_eq rfl rfl rfl
      dsimp only at next
      split at next <;> cases next
      · exact timed.goes (State.holdTick_goes _ _ _) (by decide)
      · exact (State.readBefore_readBetween (fun u => u.tickTaken_goes _ _) timed).goes (State.dispatch_goes _) (by decide)

theorem execLocalPeriodTimerExpiry_readBetween {s t : State} (holds : s.ReadBetween)
    (next : execLocalPeriodTimerExpiry s = .next t) : t.ReadBetween := by
  unfold execLocalPeriodTimerExpiry at next
  split at next
  · cases next; exact holds
  · split at next
    · cases next; exact holds
    · dsimp only at next
      split at next <;> cases next
      · exact holds.of_eq rfl rfl rfl
      · refine State.ReadBetween.goes ?_ (State.dispatch_goes _) (by decide)
        refine State.readBefore_readBetween State.expiryTaken_goes ?_
        exact holds.of_eq rfl rfl rfl

/-- R171, R172: of the requests that wait for a pass only a QUERY_STATUS begins a reading. -/
theorem State.finishDeferred_readBetween {s : State} (idle : s.pass = none) (unread : s.report.reading = none) :
    s.finishDeferred.ReadBetween := by
  unfold State.finishDeferred
  split
  · exact State.readBetween_of_none unread
  case h_2 r busy =>
    unfold State.finishRequest
    split
    · exact State.readBetween_of_none (s.configureTracker_goes.report.reading.trans unread)
    split
    · exact State.readBetween_of_none unread
    split
    case isTrue kind =>
      exact (State.readOn_readBetween (g := ⟨[], statusParts⟩) idle busy kind (List.suffix_refl _) _).of_eq rfl rfl rfl
    split
    · exact State.readBetween_of_none (s.forceSearch_goes.report.reading.trans unread)
    split
    · refine State.readBetween_of_none ((State.dispatch_goes _).report.reading.trans ?_)
      rw [State.reply_reading, State.softReset_report, Report.softReset_reading, unread]
    · exact State.readBetween_of_none unread

theorem State.takeDeferred_readBetween {s : State} (idle : s.pass = none) (unread : s.report.reading = none) (n : Nat) :
    (s.takeDeferred n).ReadBetween := by
  unfold State.takeDeferred
  split
  · exact State.finishDeferred_readBetween ((s.actOnLimit_goes.only.pass (by decide)).trans idle)
      (s.actOnLimit_goes.report.reading.trans unread)
  · exact (State.finishDeferred_readBetween idle unread).goes (State.actOnLimit_goes _) (by decide)

theorem State.finishPass_readBetween {s : State} (unread : s.report.reading = none) : s.finishPass.ReadBetween := by
  unfold State.finishPass
  split
  · exact State.readBetween_of_none unread
  case h_2 p _ =>
    refine State.ReadBetween.goes ?_ (State.dispatch_goes _) (by decide)
    refine State.readBefore_readBetween (fun u => State.takeAllWaiting_goes _ u) ?_
    exact State.takeDeferred_readBetween (s.completePass_pass p) ((s.completePass_goes p).report.reading.trans unread) _

theorem execPassComplete_readBetween {elapsed : Nat} {s t : State} (holds : s.ReadBetween)
    (next : execPassComplete elapsed s = .next t) : t.ReadBetween := by
  unfold execPassComplete at next
  split at next
  · cases next; exact holds
  case h_2 p under =>
    split at next <;> cases next
    · have unread : (s.passTime elapsed).report.reading = none := holds.none_of_pass under
      exact State.finishPass_readBetween ((State.renderTurns_goes _ _ _).report.reading.trans unread)
    · exact holds

/-- A management command begins with nothing being read, since it begins with the unit IDLE. -/
theorem State.serve_readBetween {s t : State} {fits : Request → Bool} {f : Request → State → State}
    (holds : s.ReadBetween)
    (h : ∀ (r : Request) (u : State), fits r = true → u.report.busy = some r → u.report.reading = none →
      (f r u).ReadBetween) (next : s.serve fits f = .next t) : t.ReadBetween := by
  rcases State.serve_next next with rfl | ⟨r, -, -, grants, fit, rfl⟩
  · exact holds
  · simp only [Report.grants, Bool.and_eq_true, Option.isNone_iff_eq_none] at grants
    obtain ⟨⟨⟨idle, -⟩, -⟩, -⟩ := grants
    exact h r _ fit rfl (holds.none_of_idle idle)

/-- A management command that answers at once, or makes its request wait, and reads no status. -/
theorem State.serve_unread {s t : State} {fits : Request → Bool} {f : Request → State → State} (holds : s.ReadBetween)
    (h : ∀ (r : Request) (u : State), (f r u).report.reading = u.report.reading)
    (next : s.serve fits f = .next t) : t.ReadBetween :=
  State.serve_readBetween holds (fun r u _ _ unread => State.readBetween_of_none ((h r u).trans unread)) next

theorem State.betweenPasses_reading {s : State} {r : Request} {finish : Request → State → State}
    (h : (finish r s).report.reading = s.report.reading) :
    (s.betweenPasses r finish).report.reading = s.report.reading := by
  unfold State.betweenPasses
  split
  · rfl
  · exact h

theorem State.finishReset_reading (r : Request) (s : State) :
    (State.finishReset r s).report.reading = s.report.reading := by
  rw [State.finishReset, (State.dispatch_goes _).report.reading, State.reply_reading, State.softReset_report,
    Report.softReset_reading]

theorem State.loadSample_reading (s : State) (r : Request) : (s.loadSample r).report.reading = s.report.reading := by
  unfold State.loadSample
  split
  · rfl
  · exact ((State.dispatch_goes _).report.reading.trans (State.announceLoad_goes _ _ _).report.reading).trans
      (s.storeLoad_goes _ _).report.reading

theorem State.retireSample_reading (s : State) (r : Request) : (s.retireSample r).report.reading = s.report.reading := by
  unfold State.retireSample
  dsimp only
  split
  · rfl
  split
  · rfl
  · exact (State.dispatch_goes _).report.reading.trans (s.retireEntry_goes _ _).report.reading

theorem State.loadArticulation_reading (s : State) (r : Request) :
    (s.loadArticulation r).report.reading = s.report.reading := by
  unfold State.loadArticulation
  split <;> rfl

theorem State.loadZones_reading (s : State) (r : Request) : (s.loadZones r).report.reading = s.report.reading := by
  unfold State.loadZones
  split
  · rfl
  · exact (s.putZones_goes _).report.reading

theorem State.loadCurve_reading (s : State) (r : Request) : (s.loadCurve r).report.reading = s.report.reading := by
  unfold State.loadCurve
  split
  · rfl
  · split <;> rfl

theorem State.loadMatrix_reading (s : State) (r : Request) : (s.loadMatrix r).report.reading = s.report.reading := by
  unfold State.loadMatrix
  dsimp only
  split <;> rfl

theorem EventWork.foldl_reading {α : Type} (f : EventWork → α → EventWork)
    (h : ∀ w a, (f w a).report.reading = w.report.reading) (l : List α) (w : EventWork) :
    (l.foldl f w).report.reading = w.report.reading := by
  induction l generalizing w with
  | nil => rfl
  | cons a rest ih => exact (ih _).trans (h w a)

theorem State.eventRequest_reading {s : State} {w : EventWork} (same : w.report.reading = s.report.reading) (r : Request)
    (checks : List (Nat × Bool)) : (s.eventRequest r checks w).report.reading = s.report.reading := by
  unfold State.eventRequest
  split
  · rfl
  · rw [State.reply_reading, State.setReport_report, EventWork.finish_reading, same]

theorem maskWork_reading (b : List Byte) (r : Report) : (maskWork b r).report.reading = r.reading := by
  refine EventWork.foldl_reading _ (fun w p => ?_) _ _
  split <;> rfl

theorem clearWork_reading (b : List Byte) (r : Report) : (clearWork b r).report.reading = r.reading := by
  refine EventWork.foldl_reading _ (fun w p => ?_) _ _
  split <;> rfl

theorem setWork_reading (b : List Byte) (r : Report) : (setWork b r).report.reading = r.reading := by
  refine EventWork.foldl_reading _ (fun w p => ?_) _ _
  split <;> rfl

theorem State.configure_reading (s : State) (r : Request) : (s.configure r).report.reading = s.report.reading := by
  unfold State.configure
  split
  · split
    · rfl
    · exact (State.betweenPasses_reading (State.configureTracker_goes _).report.reading).trans
        (s.adopt_goes r).report.reading
  · rfl

/-- R172: a QUERY_STATUS begins its reading between passes. -/
theorem State.queryStatus_readBetween {s : State} {r : Request} (fits : isRequest kindQueryStatus r = true)
    (busy : s.report.busy = some r) (unread : s.report.reading = none) :
    (s.betweenPasses r State.finishQueryStatus).ReadBetween := by
  unfold State.betweenPasses
  split
  · exact State.readBetween_of_none unread
  case isFalse idle =>
    have kind : r.kind = kindQueryStatus := beq_iff_eq.mp (Bool.and_eq_true_iff.mp fits).2
    exact (State.readOn_readBetween (g := ⟨[], statusParts⟩) (State.not_passUnderWay.mp idle) busy kind
      (List.suffix_refl _) _).of_eq rfl rfl rfl

theorem Report.placeHeld_reading (r : Report) : r.placeHeld.reading = r.reading := by
  unfold Report.placeHeld
  dsimp only
  split <;> rfl

theorem Report.placeHeld_busy (r : Report) : r.placeHeld.busy = r.busy := by
  unfold Report.placeHeld
  dsimp only
  split <;> rfl

theorem Report.relist_reading (r : Report) (wants : Bool) : (r.relist wants).reading = r.reading := by
  unfold Report.relist
  split
  · rfl
  · split
    · exact Report.wantNotice_reading _
    · rfl

theorem Report.relist_busy (r : Report) (wants : Bool) : (r.relist wants).busy = r.busy := by
  unfold Report.relist
  split
  · rfl
  · split
    · exact Report.wantNotice_busy _
    · rfl

theorem execTransmitFrame_readBetween {s t : State} (holds : s.ReadBetween) (next : execTransmitFrame s = .next t) :
    t.ReadBetween := by
  unfold execTransmitFrame at next
  split at next
  · split at next <;> cases next
    · exact holds.of_eq rfl rfl rfl
    · exact holds.goes s.sendData_goes (by decide)
  · cases next; exact holds

theorem exec_readBetween {c : Instr} {s t : State} (holds : s.ReadBetween) (next : exec c s = .next t) :
    t.ReadBetween := by
  have going {o : Host.Outcome State Fault Refusal} {ps : List Part} (on : s.GoesOn o ps) (is : o = .next t)
      (pass : Part.pass ∉ ps) : t.ReadBetween := by
    subst is
    exact holds.goes on.goes pass
  cases c with
  | powerOn => cases next; exact State.readBetween_of_none rfl
  | frameReceived f => exact going (execFrameReceived_goesOn f s) next (by decide)
  | voiceStart => exact going (execVoiceStart_goesOn s) next (by decide)
  | voiceRelease => exact going (execVoiceRelease_goesOn s) next (by decide)
  | voiceStop => exact going (execVoiceStop_goesOn s) next (by decide)
  | stopAll => exact going (execStopAll_goesOn s) next (by decide)
  | tick => exact execTick_readBetween holds next
  | localPeriodTimerExpiry => exact execLocalPeriodTimerExpiry_readBetween holds next
  | passComplete => exact execPassComplete_readBetween holds next
  | readCompletion l n status data => exact going (execReadCompletion_goesOn l n status data s) next (by decide)
  | readTimeout l n => exact going (execReadTimeout_goesOn l n s) next (by decide)
  | staleHoldExpiry l n => exact going (execStaleHoldExpiry_goesOn l n s) next (by decide)
  | errorWindowEnd l => exact going (execErrorWindowEnd_goesOn l s) next (by decide)
  | presenceLost l => exact going (execPresenceLost_goesOn l s) next (by decide)
  | presenceReturned l => exact going (execPresenceReturned_goesOn l s) next (by decide)
  | linkDown =>
    cases next
    exact holds.of_eq rfl (Report.relist_reading _ _) (Report.relist_busy _ _)
  | linkUp => exact going (execLinkUp_goesOn s) next (by decide)
  | transmitFrame => exact execTransmitFrame_readBetween holds next
  | noticeHeldQueued =>
    change execNoticeHeldQueued s = .next t at next
    unfold execNoticeHeldQueued at next
    split at next <;> cases next
    · exact holds.of_eq rfl (Report.placeHeld_reading _) (Report.placeHeld_busy _)
    · exact holds
  | endListFlushOnRoom =>
    change execEndListFlushOnRoom s = .next t at next
    unfold execEndListFlushOnRoom at next
    split at next <;> cases next
    · exact holds.of_eq rfl rfl rfl
    · exact holds
  | badRequestReply => exact State.serve_unread holds (fun r u => u.reply_reading r _) next
  | configure => exact State.serve_unread holds (fun r u => u.configure_reading r) next
  | loadSample => exact State.serve_unread holds (fun r u => u.loadSample_reading r) next
  | retireSample => exact State.serve_unread holds (fun r u => u.retireSample_reading r) next
  | querySample => exact State.serve_unread holds (fun r u => u.reply_reading r _) next
  | loadArticulation => exact State.serve_unread holds (fun r u => u.loadArticulation_reading r) next
  | loadZones => exact State.serve_unread holds (fun r u => u.loadZones_reading r) next
  | loadCurve => exact State.serve_unread holds (fun r u => u.loadCurve_reading r) next
  | loadMatrix => exact State.serve_unread holds (fun r u => u.loadMatrix_reading r) next
  | queryVoice => exact State.serve_unread holds (fun r u => State.betweenPasses_reading rfl) next
  | queryStatus => exact State.serve_readBetween holds (fun r u => State.queryStatus_readBetween) next
  | eventMask =>
    exact State.serve_unread holds (fun r u => State.eventRequest_reading (maskWork_reading _ _) r _) next
  | eventClear =>
    exact State.serve_unread holds (fun r u => State.eventRequest_reading (clearWork_reading _ _) r _) next
  | eventSet =>
    exact State.serve_unread holds (fun r u => State.eventRequest_reading (setWork_reading _ _) r _) next
  | resync =>
    exact State.serve_unread holds (fun r u => State.betweenPasses_reading u.forceSearch_goes.report.reading) next
  | reset => exact State.serve_unread holds (fun r u => State.betweenPasses_reading (u.finishReset_reading r)) next

theorem State.idle_readBetween {s : State} (holds : s.ReadBetween) : s.idle.ReadBetween := by
  unfold State.idle
  split
  case h_1 r g reading =>
    obtain ⟨busy, reads⟩ := Report.reading?_some.mp reading
    obtain ⟨idle, -, suffix, q, busyWith, kind⟩ := holds g reads
    obtain rfl : r = q := Option.some.inj (busy.symm.trans busyWith)
    exact State.readOn_readBetween idle busy kind suffix 1
  case h_2 unread =>
    exact State.readBetween_of_none (s.idleOn_goes.report.reading.trans (holds.reading?_none unread))

/-- Settles O10: only `State.openPass` opens a pass, in a running tracker for its horizon; a reading is begun where no
pass is under way, and `State.readBefore` ends it before one is opened. -/
theorem passHoldsKept : Obligations.PassHoldsKept :=
  ⟨fun _ _ holds h => step_keeps (P := State.PassHolds) (fun _ _ => id) (fun _ => State.idle_passHolds)
      (fun _ _ _ => exec_passHolds) holds h,
    fun _ _ holds h => step_keeps (P := State.ReadBetween) (fun _ _ => id) (fun _ => State.idle_readBetween)
      (fun _ _ _ => exec_readBetween) holds h⟩

end Sys2Proof.Machine
end

section
/-! SUPPORT. The fetch scheduler's window invariant is none by itself: a lane that goes away makes every slot that its
queue names LOST, a DRAINING one too, and a LOST slot is committed to its chunk where a DRAINING one is not. -/

namespace Sys2Proof.Machine

/-- The slot of a voice that is gone, DRAINING without a successor, with a part still marked WAITING. -/
def drainingWaiting : Slot :=
  { state := .draining, chunk := 0, deadline := 0, retryUsed := false, marks := [.waiting], outstanding := 0,
    successor := none }

/-- A part of that slot in the fetch queue of lane 0. -/
def drainingEntry : QueueEntry :=
  { voice := 0, slot := 0, part := 0, deadline := 0, address := 0, unitCount := 1 }

/-- The part after power-on but for the slot and its part in the queue, as the module of lane 0 is about to go away. -/
def queuedWhileDraining : State :=
  { State.reset with
    slots := [(0, drainingWaiting)]
    lanes := { State.reset.lanes with lane0 := { Lane.initial true with queue := [drainingEntry] } }
    pending := [.presenceLost .lane0] }

/-- The same after the module has gone: the slot is LOST. -/
def lostWithoutVoice : State :=
  { queuedWhileDraining with
    report := queuedWhileDraining.report.raise (.laneState .lane0 .ready .offline)
    slots := [(0, { drainingWaiting with state := .lost, marks := [.failed] })]
    lanes := { State.reset.lanes with lane0 := (Lane.initial true).offline }
    pending := [] }

theorem queuedWhileDraining_windowsHold : queuedWhileDraining.WindowsHold := by
  refine ⟨by decide, List.Pairwise.nil, List.pairwise_singleton _ _, fun v j slot _ listed k committed => ?_⟩
  have draining : slot = drainingWaiting := by
    simp only [State.slot?, queuedWhileDraining, Table.get?_cons] at listed
    split at listed
    · exact (Option.some.inj listed).symm
    · cases listed
  rw [draining] at committed
  cases committed

theorem step_queuedWhileDraining : step queuedWhileDraining = .next lostWithoutVoice := rfl

/-- Refutes O13: `State.WindowsHold` is not kept by itself. It says nothing of the lanes' queues, so that a part of a
DRAINING slot may wait in one; PRESENCE_LOST makes that slot LOST, committed to a chunk that no voice wants. -/
theorem not_fetchKept : ¬ Obligations.FetchKept := by
  rintro ⟨-, windowsKept, -⟩
  have kept := windowsKept _ _ queuedWhileDraining_windowsHold step_queuedWhileDraining
  obtain ⟨-, -, -, wanted⟩ := kept
  obtain ⟨x, voice, -⟩ := wanted 0 0 { drainingWaiting with state := .lost, marks := [.failed] } (by decide) rfl 0 rfl
  cases voice

end Sys2Proof.Machine
end

section
/-! SUPPORT. What each shared operation may change of the lanes: for each, the parts of every lane outside a list stay as
they were. Lane frames compose and widen as those of the whole state do. -/

namespace Sys2Proof.Machine

/-- The nine parts of a lane. -/
inductive LanePart where
  | state
  | present
  | reads
  | errors
  | window
  | queue
  | primingList
  | segments
  | primingOutstanding
deriving DecidableEq

/-- A part is in the lane `y` as it is in `x`. -/
def LanePart.Same (x y : Lane) : LanePart → Prop
  | .state => y.state = x.state
  | .present => y.present = x.present
  | .reads => y.reads = x.reads
  | .errors => y.errors = x.errors
  | .window => y.window = x.window
  | .queue => y.queue = x.queue
  | .primingList => y.primingList = x.primingList
  | .segments => y.segments = x.segments
  | .primingOutstanding => y.primingOutstanding = x.primingOutstanding

/-- Every lane of `t` differs from that of `s` in the listed parts only. -/
def State.LanesOnly (s t : State) (ps : List LanePart) : Prop :=
  ∀ l, ∀ p, p ∉ ps → p.Same (s.lane l) (t.lane l)

@[simp] theorem PerLane.get_set {α : Type} (p : PerLane α) (l k : LaneId) (a : α) :
    PerLane.get (PerLane.set p l a) k = if k = l then a else PerLane.get p k := by
  cases l <;> cases k <;> rfl

@[simp] theorem PerLane.get_map {α β : Type} (p : PerLane α) (f : α → β) (l : LaneId) :
    PerLane.get (PerLane.map p f) l = f (PerLane.get p l) := by
  cases l <;> rfl

@[simp] theorem State.lane_setLane (s : State) (l k : LaneId) (x : Lane) :
    (s.setLane l x).lane k = if k = l then x else s.lane k :=
  PerLane.get_set _ _ _ _

theorem State.lane_setLanes_map (s : State) (f : Lane → Lane) (l : LaneId) :
    (s.setLanes (PerLane.map s.lanes f)).lane l = f (s.lane l) :=
  PerLane.get_map _ _ _

namespace State.LanesOnly

variable {s t u : State} {ps qs : List LanePart}

theorem of_lanes (h : t.lanes = s.lanes) : s.LanesOnly t ps := by
  intro l p _
  rw [State.lane, State.lane, h]
  cases p <;> rfl

theorem refl (s : State) (ps : List LanePart) : s.LanesOnly s ps := of_lanes rfl

theorem trans (h : s.LanesOnly t ps) (k : t.LanesOnly u ps) : s.LanesOnly u ps := by
  intro l p out
  have a := h l p out
  have b := k l p out
  cases p <;> exact Eq.trans b a

theorem wider (h : s.LanesOnly t ps) (m : ∀ p ∈ ps, p ∈ qs) : s.LanesOnly t qs :=
  fun l p out => h l p fun i => out (m p i)

theorem state (h : s.LanesOnly t ps) (n : LanePart.state ∉ ps) (l : LaneId) : (t.lane l).state = (s.lane l).state :=
  h l _ n
theorem present (h : s.LanesOnly t ps) (n : LanePart.present ∉ ps) (l : LaneId) :
    (t.lane l).present = (s.lane l).present := h l _ n
theorem reads (h : s.LanesOnly t ps) (n : LanePart.reads ∉ ps) (l : LaneId) : (t.lane l).reads = (s.lane l).reads :=
  h l _ n
theorem errors (h : s.LanesOnly t ps) (n : LanePart.errors ∉ ps) (l : LaneId) :
    (t.lane l).errors = (s.lane l).errors := h l _ n
theorem window (h : s.LanesOnly t ps) (n : LanePart.window ∉ ps) (l : LaneId) :
    (t.lane l).window = (s.lane l).window := h l _ n
theorem queue (h : s.LanesOnly t ps) (n : LanePart.queue ∉ ps) (l : LaneId) : (t.lane l).queue = (s.lane l).queue :=
  h l _ n
theorem primingList (h : s.LanesOnly t ps) (n : LanePart.primingList ∉ ps) (l : LaneId) :
    (t.lane l).primingList = (s.lane l).primingList := h l _ n
theorem segments (h : s.LanesOnly t ps) (n : LanePart.segments ∉ ps) (l : LaneId) :
    (t.lane l).segments = (s.lane l).segments := h l _ n
theorem primingOutstanding (h : s.LanesOnly t ps) (n : LanePart.primingOutstanding ∉ ps) (l : LaneId) :
    (t.lane l).primingOutstanding = (s.lane l).primingOutstanding := h l _ n

end State.LanesOnly

theorem State.LanesOnly.then {s t u : State} {ps qs : List LanePart} (h : s.LanesOnly t ps) (k : t.LanesOnly u qs)
    (m : ∀ p ∈ qs, p ∈ ps) : s.LanesOnly u ps :=
  h.trans (k.wider m)

/-- An operation that leaves the lanes alone. -/
theorem State.ChangesOnly.lanesOnly {s t : State} {ps : List Part} (h : s.ChangesOnly t ps) (n : Part.lanes ∉ ps)
    {qs : List LanePart} : s.LanesOnly t qs :=
  .of_lanes (h.lanes n)

/-- One lane rewritten, the listed parts apart as it was. -/
theorem State.setLane_lanesOnly {s : State} {l : LaneId} {x : Lane} {ps : List LanePart}
    (h : ∀ p, p ∉ ps → p.Same (s.lane l) x) : s.LanesOnly (s.setLane l x) ps := by
  intro k p out
  rw [State.lane_setLane]
  split
  case isTrue is => exact is ▸ h p out
  case isFalse => cases p <;> rfl

/-- Every lane rewritten in the same way. -/
theorem State.setLanes_map_lanesOnly {s : State} {f : Lane → Lane} {ps : List LanePart}
    (h : ∀ (x : Lane) (p : LanePart), p ∉ ps → p.Same x (f x)) : s.LanesOnly (s.setLanes (PerLane.map s.lanes f)) ps := by
  intro l p out
  rw [State.lane_setLanes_map]
  exact h _ p out

theorem State.foldl_lanesOnly {α : Type} {ps : List LanePart} {f : State → α → State}
    (h : ∀ (s : State) (a : α), s.LanesOnly (f s a) ps) (l : List α) (s : State) : s.LanesOnly (l.foldl f s) ps := by
  induction l generalizing s with
  | nil => exact .refl s ps
  | cons a rest ih => exact (h s a).trans (ih _)

/-! ### The fetch scheduler: of the lanes the queues alone -/

theorem State.enqueue_lanesOnly (s : State) (l : LaneId) (n : QueueEntry) : s.LanesOnly (s.enqueue l n) [.queue] := by
  refine State.setLane_lanesOnly fun p out => ?_
  cases p <;> first | exact absurd (by decide) out | rfl

theorem State.enqueueParts_lanesOnly (s : State) (l : LaneId) (v j : Nat) (d : PeriodIndex) (e : SampleEntry)
    (parts : List PartRange) : s.LanesOnly (s.enqueueParts l v j d e parts) [.queue] :=
  State.foldl_lanesOnly (fun t _ => t.enqueue_lanesOnly _ _) _ s

theorem State.unqueueSlot_lanesOnly (s : State) (v j : Nat) : s.LanesOnly (s.unqueueSlot v j) [.queue] := by
  refine State.setLanes_map_lanesOnly fun x p out => ?_
  cases p <;> first | exact absurd (by decide) out | rfl

theorem State.setUpChunk_lanesOnly (s : State) (v j : Nat) (x : Voice) (e : SampleEntry) (k : Nat) :
    s.LanesOnly (s.setUpChunk v j x e k) [.queue] := by
  unfold State.setUpChunk
  split
  · exact (s.loseNewChunk_goes _ _ _ _ _).only.lanesOnly (by decide)
  · exact ((s.putSlot_goes _ _ _).only.lanesOnly (by decide)).trans (State.enqueueParts_lanesOnly _ _ _ _ _ _ _)

theorem State.requestChunk_lanesOnly (s : State) (v : Nat) (x : Voice) (e : SampleEntry) (k : Nat) :
    s.LanesOnly (s.requestChunk v x e k) [.queue] := by
  unfold State.requestChunk
  split
  · exact s.setUpChunk_lanesOnly _ _ _ _ _
  split
  · exact (s.putSlot_goes _ _ _).only.lanesOnly (by decide)
  · exact .refl s _

theorem State.prefillFrom_lanesOnly (v : Nat) (x : Voice) (e : SampleEntry) (n k : Nat) (s : State) :
    s.LanesOnly (State.prefillFrom v x e n k s) [.queue] := by
  induction n generalizing k s with
  | zero => exact .refl s _
  | succ n ih =>
    unfold State.prefillFrom
    split
    · exact .refl s _
    · exact (s.requestChunk_lanesOnly _ _ _ _).trans (ih _ _)

theorem State.prefill_lanesOnly (s : State) (v : Nat) (x : Voice) (e : SampleEntry) :
    s.LanesOnly (s.prefill v x e) [.queue] :=
  State.prefillFrom_lanesOnly _ _ _ _ _ s

theorem State.replaceParts_lanesOnly (s : State) (v : Nat) : s.LanesOnly (s.replaceParts v) [.queue] := by
  refine State.setLanes_map_lanesOnly fun x p out => ?_
  cases p <;> first | exact absurd (by decide) out | rfl

theorem State.shiftDeadlines_lanesOnly (s : State) (v : Nat) (d : PeriodIndex) :
    s.LanesOnly (s.shiftDeadlines v d) [.queue] :=
  (State.foldl_lanesOnly (fun t j => (t.shiftSlot_goes v d j).only.lanesOnly (by decide)) _ s).trans
    (State.replaceParts_lanesOnly _ _)

theorem State.resolveDrained_lanesOnly (s : State) (v j : Nat) (k : Option Nat) :
    s.LanesOnly (s.resolveDrained v j k) [.queue] := by
  unfold State.resolveDrained
  split
  · split
    · exact s.setUpChunk_lanesOnly _ _ _ _ _
    · exact (s.clearSlot_goes _ _).only.lanesOnly (by decide)
  · exact (s.clearSlot_goes _ _).only.lanesOnly (by decide)

theorem State.drainRead_lanesOnly (s : State) (v j p : Nat) (slot : Slot) :
    s.LanesOnly (s.drainRead v j p slot) [.queue] := by
  unfold State.drainRead
  split
  · exact s.resolveDrained_lanesOnly _ _ _
  · exact (s.putSlot_goes _ _ _).only.lanesOnly (by decide)

theorem State.streamOk_lanesOnly (s : State) (v j p : Nat) (data : List Byte) :
    s.LanesOnly (s.streamOk v j p data) [.queue] := by
  unfold State.streamOk
  split
  · exact .refl s _
  split
  · exact (s.fillPart_goes _ _ _ _ _).only.lanesOnly (by decide)
  · exact s.drainRead_lanesOnly _ _ _ _
  · exact (s.putSlot_goes _ _ _).only.lanesOnly (by decide)
  · exact .refl s _
  · exact .refl s _

theorem State.loseSlot_lanesOnly (s : State) (v j : Nat) (l : LaneId) (slot : Slot) (marks : List PartMark) (n : Nat) :
    s.LanesOnly (s.loseSlot v j l slot marks n) [.queue] := by
  unfold State.loseSlot
  dsimp only
  have lost (kept : Slot) : s.LanesOnly ((s.putSlot v j kept).unqueueSlot v j) [.queue] :=
    ((s.putSlot_goes _ _ _).only.lanesOnly (by decide)).trans (State.unqueueSlot_lanesOnly _ _ _)
  split
  · exact lost _
  · exact (lost _).trans ((State.raise_goes _ _).only.lanesOnly (by decide))

theorem State.failPart_lanesOnly (s : State) (v j p : Nat) (l : LaneId) (retry : Bool) (a n : Nat) :
    s.LanesOnly (s.failPart v j p l retry a n) [.queue] := by
  unfold State.failPart
  split
  · exact .refl s _
  split
  · split
    · exact ((s.putSlot_goes _ _ _).only.lanesOnly (by decide)).trans (State.enqueue_lanesOnly _ _ _)
    · exact s.loseSlot_lanesOnly _ _ _ _ _ _
  · exact s.drainRead_lanesOnly _ _ _ _
  · exact (s.putSlot_goes _ _ _).only.lanesOnly (by decide)
  · exact .refl s _
  · exact .refl s _

theorem State.loseQueued_lanesOnly (s : State) (l : LaneId) (n : QueueEntry) :
    s.LanesOnly (s.loseQueued l n) [.queue] := by
  unfold State.loseQueued
  split
  · exact .refl s _
  split
  · exact .refl s _
  · exact s.loseSlot_lanesOnly _ _ _ _ _ _

theorem State.passChunk_lanesOnly (s : State) (v : Nat) (x : Voice) (k : Nat) : s.LanesOnly (s.passChunk v x k) [.queue] := by
  have cleared (j : Nat) : s.LanesOnly (s.clearSlot v j) [.queue] := (s.clearSlot_goes v j).only.lanesOnly (by decide)
  have kept (j : Nat) (slot : Slot) : s.LanesOnly (s.putSlot v j slot) [.queue] :=
    (s.putSlot_goes v j slot).only.lanesOnly (by decide)
  unfold State.passChunk
  dsimp only
  split
  · exact .refl s _
  split
  · exact cleared _
  · split
    · exact cleared _
    · exact kept _ _
  · exact (cleared _).trans (State.unqueueSlot_lanesOnly _ _ _)
  · split
    · exact (cleared _).trans (State.unqueueSlot_lanesOnly _ _ _)
    · exact (kept _ _).trans (State.unqueueSlot_lanesOnly _ _ _)
  · split
    · exact kept _ _
    · exact .refl s _

theorem State.cancelSlot_lanesOnly (s : State) (v j : Nat) : s.LanesOnly (s.cancelSlot v j) [.queue] := by
  unfold State.cancelSlot
  split
  · exact .refl s _
  split
  · exact ((s.clearSlot_goes _ _).only.lanesOnly (by decide)).trans (State.unqueueSlot_lanesOnly _ _ _)
  · exact ((s.putSlot_goes _ _ _).only.lanesOnly (by decide)).trans (State.unqueueSlot_lanesOnly _ _ _)

theorem State.cancelRing_lanesOnly (s : State) (v : Nat) : s.LanesOnly (s.cancelRing v) [.queue] :=
  State.foldl_lanesOnly (fun t j => t.cancelSlot_lanesOnly v j) _ s

theorem State.refillVoice_lanesOnly (s : State) (v : Nat) : s.LanesOnly (s.refillVoice v) [.queue] := by
  unfold State.refillVoice
  split
  · exact .refl s _
  split
  · exact .refl s _
  dsimp only
  split
  · refine State.foldl_lanesOnly (fun t k => ?_) _ s
    split
    · exact .refl t _
    · exact t.requestChunk_lanesOnly _ _ _ _
  · exact .refl s _

/-! ### The lanes and the sample map -/

/-- The parts of a lane that dispatch changes. -/
abbrev dispatchLaneParts : List LanePart := [.reads, .queue, .segments, .primingOutstanding]

theorem State.dispatchOne?_lanesOnly {s t : State} {l : LaneId} (h : s.dispatchOne? l = some t) :
    s.LanesOnly t dispatchLaneParts := by
  unfold State.dispatchOne? at h
  dsimp only at h
  split at h
  · cases h
  split at h
  · cases h
  split at h
  case h_1 =>
    cases h
    unfold State.dispatchStream
    dsimp only
    have sent (x : Lane) (same : ∀ p, p ∉ dispatchLaneParts → p.Same (s.lane l) x) :=
      State.setLane_lanesOnly (s := s) (l := l) same
    split
    · refine (sent _ fun p out => ?_).trans ((State.putSlot_goes _ _ _ _).only.lanesOnly (by decide))
      cases p <;> first | exact absurd (by decide) out | rfl
    · refine sent _ fun p out => ?_
      cases p <;> first | exact absurd (by decide) out | rfl
  case h_2 =>
    unfold State.dispatchPriming? at h
    dsimp only at h
    split at h
    · cases h
    split at h
    · split at h
      · cases h
        refine State.setLane_lanesOnly fun p out => ?_
        cases p <;> first | exact absurd (by decide) out | rfl
      · cases h
    · cases h

theorem State.dispatchLane_lanesOnly (l : LaneId) (n : Nat) (s : State) :
    s.LanesOnly (State.dispatchLane l n s) dispatchLaneParts := by
  induction n generalizing s with
  | zero => exact .refl s _
  | succ n ih =>
    unfold State.dispatchLane
    split
    · exact .refl s _
    case h_2 one => exact (State.dispatchOne?_lanesOnly one).trans (ih _)

theorem State.dispatch_lanesOnly (s : State) : s.LanesOnly s.dispatch dispatchLaneParts :=
  (((State.dispatchLane_lanesOnly _ _ s).trans (State.dispatchLane_lanesOnly _ _ _)).trans
    (State.dispatchLane_lanesOnly _ _ _)).trans (State.dispatchLane_lanesOnly _ _ _)

theorem State.countFailure_lanesOnly (s : State) (l : LaneId) : s.LanesOnly (s.countFailure l) [.state, .errors] := by
  unfold State.countFailure
  dsimp only
  split
  · exact .refl s _
  split
  · refine (State.setLane_lanesOnly fun p out => ?_).trans ((State.raise_goes _ _).only.lanesOnly (by decide))
    cases p <;> first | exact absurd (by decide) out | rfl
  · refine State.setLane_lanesOnly fun p out => ?_
    cases p <;> first | exact absurd (by decide) out | rfl

theorem State.releaseNumber_lanesOnly (s : State) (l : LaneId) (n : Nat) (hold : Option Nat) :
    s.LanesOnly (s.releaseNumber l n hold) [.reads] := by
  refine State.setLane_lanesOnly fun p out => ?_
  cases p <;> first | exact absurd (by decide) out | rfl

theorem State.discardReads_lanesOnly (s : State) (l : LaneId) (h : Nat) : s.LanesOnly (s.discardReads l h) [.reads] := by
  refine State.setLane_lanesOnly fun p out => ?_
  cases p <;> first | exact absurd (by decide) out | rfl

theorem State.countPrimingRead_lanesOnly (s : State) (l : LaneId) :
    s.LanesOnly (s.countPrimingRead l) [.primingOutstanding] := by
  refine State.setLane_lanesOnly fun p out => ?_
  cases p <;> first | exact absurd (by decide) out | rfl

theorem State.markSegment_lanesOnly (s : State) (l : LaneId) (j : Nat) (g : Segment) :
    s.LanesOnly (s.markSegment l j g) [.segments] := by
  refine State.setLane_lanesOnly fun p out => ?_
  cases p <;> first | exact absurd (by decide) out | rfl

theorem State.suspendSegment_lanesOnly (s : State) (l : LaneId) (h j : Nat) :
    s.LanesOnly (s.suspendSegment l h j) [.segments] := by
  unfold State.suspendSegment
  split
  · exact s.markSegment_lanesOnly _ _ _
  · exact .refl s _

theorem State.leavePriming_lanesOnly (s : State) (l : LaneId) (h : Nat) :
    s.LanesOnly (s.leavePriming l h) [.primingList, .segments] := by
  refine State.setLane_lanesOnly fun p out => ?_
  cases p <;> first | exact absurd (by decide) out | rfl

theorem State.joinPriming_lanesOnly (s : State) (l : LaneId) (h : Nat) :
    s.LanesOnly (s.joinPriming l h) [.primingList, .segments] := by
  refine State.setLane_lanesOnly fun p out => ?_
  cases p <;> first | exact absurd (by decide) out | rfl

theorem State.resolveOffline_lanesOnly (l : LaneId) (s : State) (row : Nat × ReadEntry) :
    s.LanesOnly (s.resolveOffline l row) [.queue, .segments] := by
  unfold State.resolveOffline
  split
  · exact (s.failPart_lanesOnly _ _ _ _ _ _ _).wider (by decide)
  · split
    · exact .refl s _
    · exact (s.suspendSegment_lanesOnly _ _ _).wider (by decide)
  · exact .refl s _

theorem State.loseQueue_lanesOnly (s : State) (l : LaneId) : s.LanesOnly (s.loseQueue l) [.queue] := by
  refine (State.foldl_lanesOnly (fun t n => t.loseQueued_lanesOnly l n) _ s).trans
    (State.setLane_lanesOnly fun p out => ?_)
  cases p <;> first | exact absurd (by decide) out | rfl

end Sys2Proof.Machine
end

section
/-! SUPPORT. Reference counts over a step (R17): a voice is counted when it starts and taken off when it ends, and an
entry comes and goes only while no voice plays it. -/

namespace Sys2Proof.Machine

/-! ### Counting records of a table -/

/-- The records of a table that satisfy a test. -/
def Table.tally {α : Type} (p : α → Bool) (t : Table α) : Nat :=
  (t.filter fun row => p row.2).length

/-- What a record that may be absent adds to the tally. -/
def tallyOf {α : Type} (p : α → Bool) (a : Option α) : Nat :=
  if a.any p then 1 else 0

theorem Table.tally_cons {α : Type} (p : α → Bool) (i : Nat) (a : α) (t : Table α) :
    Table.tally p ((i, a) :: t) = Table.tally p t + tallyOf p (some a) := by
  unfold Table.tally tallyOf
  rw [List.filter_cons]
  by_cases h : p a <;> simp [h]

theorem Table.get?_none_of_rising {α : Type} {i : Nat} {a : α} {t : Table α} (r : Table.Rising ((i, a) :: t)) {k : Nat}
    (h : k ≤ i) : Table.get? t k = none :=
  Table.get?_none_of_lt fun _ m => lt_of_le_of_lt h (List.rel_of_pairwise_cons r m)

/-- A record written counts in place of the one that was there. -/
theorem Table.tally_insert {α : Type} (p : α → Bool) {t : Table α} (r : Table.Rising t) (k : Nat) (a : α) :
    Table.tally p (Table.insert t k a) + tallyOf p (Table.get? t k) = Table.tally p t + tallyOf p (some a) := by
  induction t with
  | nil => simp [Table.insert, Table.tally_cons, tallyOf]
  | cons row rest ih =>
    obtain ⟨i, b⟩ := row
    unfold Table.insert
    rw [Table.get?_cons]
    split
    case isTrue before =>
      have absent := Table.get?_none_of_rising r before.le
      rw [if_neg (by omega), absent, Table.tally_cons]
      simp [tallyOf]
    case isFalse =>
      split
      case isTrue same =>
        rw [if_pos same.symm, Table.tally_cons, Table.tally_cons]
        omega
      case isFalse other =>
        have tail := ih (List.Pairwise.of_cons r)
        rw [if_neg (Ne.symm other), Table.tally_cons, Table.tally_cons]
        omega

theorem Table.tally_erase {α : Type} (p : α → Bool) {t : Table α} (r : Table.Rising t) (k : Nat) :
    Table.tally p (Table.erase t k) + tallyOf p (Table.get? t k) = Table.tally p t := by
  induction t with
  | nil => simp [Table.erase, Table.tally, tallyOf]
  | cons row rest ih =>
    obtain ⟨i, b⟩ := row
    have tail := ih (List.Pairwise.of_cons r)
    unfold Table.erase at tail ⊢
    rw [Table.get?_cons, List.filter_cons]
    by_cases same : i = k
    · have absent := Table.get?_none_of_rising r same.ge
      rw [absent] at tail
      simp only [same, bne_self_eq_false, if_true, Bool.false_eq_true, if_false, Table.tally_cons]
      simp only [tallyOf, Option.any_none, Bool.false_eq_true, if_false, Nat.add_zero] at tail
      rw [tail]
    · simp only [bne_iff_ne.mpr same, if_true, if_neg same, Table.tally_cons]
      omega

/-- The test that a voice plays the entry of a handle. -/
def playsEntry (h : Nat) (x : Voice) : Bool := x.handle == h

theorem State.playing_eq (s : State) (h : Nat) : s.playing h = Table.tally (playsEntry h) s.voices := rfl

theorem tallyOf_playsEntry (h : Nat) (x : Voice) : tallyOf (playsEntry h) (some x) = if x.handle = h then 1 else 0 := by
  simp [tallyOf, playsEntry]

theorem tallyOf_none {α : Type} (p : α → Bool) : tallyOf p none = 0 := by
  simp [tallyOf]

/-- A voice that plays an entry is counted. -/
theorem State.playing_pos {s : State} {v : Nat} {x : Voice} (voice : s.voice? v = some x) : 0 < s.playing x.handle := by
  refine List.length_pos_of_mem (a := (v, x)) (List.mem_filter.mpr ⟨Table.mem_of_get? voice, ?_⟩)
  exact beq_self_eq_true _

/-! ### The sample entries -/

@[simp] theorem State.putEntry_entry? (s : State) (h g : Nat) (e : SampleEntry) :
    (s.putEntry h e).entry? g = if g = h then some e else s.entry? g := by
  simp [State.putEntry, State.entry?, State.setSamples]

@[simp] theorem State.clearEntry_entry? (s : State) (h g : Nat) :
    (s.clearEntry h).entry? g = if g = h then none else s.entry? g := by
  simp [State.clearEntry, State.entry?, State.setSamples]

theorem State.entry?_congr {s t : State} (h : t.library.samples = s.library.samples) (g : Nat) :
    t.entry? g = s.entry? g := by
  rw [State.entry?, State.entry?, h]

theorem State.playing_congr {s t : State} (h : t.voices = s.voices) (g : Nat) : t.playing g = s.playing g := by
  rw [State.playing, State.playing, h]

/-! ### What the counts rest on -/

/-- From `s` to `t` neither a voice, nor an entry, nor a priming list changes. -/
structure State.SameCounts (s t : State) : Prop where
  voices  : t.voices = s.voices
  samples : t.library.samples = s.library.samples
  lists   : ∀ l, (t.lane l).primingList = (s.lane l).primingList

theorem State.SameCounts.refl (s : State) : s.SameCounts s := ⟨rfl, rfl, fun _ => rfl⟩

theorem State.SameCounts.trans {s t u : State} (h : s.SameCounts t) (k : t.SameCounts u) : s.SameCounts u :=
  ⟨k.voices.trans h.voices, k.samples.trans h.samples, fun l => (k.lists l).trans (h.lists l)⟩

theorem State.SameCounts.primingListed {s t : State} (h : s.SameCounts t) (listed : s.PrimingListed) :
    t.PrimingListed := by
  intro l g mem
  rw [h.lists] at mem
  rw [State.entry?_congr h.samples]
  exact listed l g mem

theorem State.SameCounts.countsHold {s t : State} (h : s.SameCounts t) (holds : s.CountsHold) : t.CountsHold := by
  obtain ⟨voicesRise, samplesRise, listed, counted, played⟩ := holds
  refine ⟨h.voices ▸ voicesRise, h.samples ▸ samplesRise, h.primingListed listed, fun g e is => ?_, fun v x is => ?_⟩
  · rw [State.entry?_congr h.samples] at is
    rw [State.playing_congr h.voices]
    exact counted g e is
  · rw [State.voice?, h.voices] at is
    rw [State.entry?_congr h.samples]
    exact played v x is

/-- An operation that leaves voices, library and lanes alone. -/
theorem State.ChangesOnly.sameCounts {s t : State} {ps : List Part} (h : s.ChangesOnly t ps) (v : Part.voices ∉ ps)
    (l : Part.library ∉ ps) (n : Part.lanes ∉ ps) : s.SameCounts t :=
  ⟨h.voices v, by rw [h.library l], fun k => by rw [State.lane, h.lanes n]; rfl⟩

/-- An operation that leaves voices, library and the priming lists alone. -/
theorem State.LanesOnly.sameCounts {s t : State} {ps : List Part} {qs : List LanePart} (k : s.LanesOnly t qs)
    (q : LanePart.primingList ∉ qs) (h : s.ChangesOnly t ps) (v : Part.voices ∉ ps) (l : Part.library ∉ ps) :
    s.SameCounts t :=
  ⟨h.voices v, by rw [h.library l], k.primingList q⟩

theorem State.foldl_countsHold {α : Type} {f : State → α → State}
    (h : ∀ (s : State) (a : α), s.CountsHold → (f s a).CountsHold) (l : List α) {s : State} (holds : s.CountsHold) :
    (l.foldl f s).CountsHold := by
  induction l generalizing s with
  | nil => exact holds
  | cons a rest ih => exact ih (h s a holds)

theorem State.dispatch_sameCounts (s : State) : s.SameCounts s.dispatch :=
  s.dispatch_lanesOnly.sameCounts (by decide) s.dispatch_goes.only (by decide) (by decide)

theorem State.raise_sameCounts (s : State) (c : Capture) : s.SameCounts (s.raise c) :=
  (s.raise_goes c).only.sameCounts (by decide) (by decide) (by decide)

theorem State.setCadence_sameCounts (s : State) (x : Cadence) : s.SameCounts (s.setCadence x) :=
  (s.setCadence_changes x).sameCounts (by decide) (by decide) (by decide)

/-! ### The voices -/

/-- R17: a record rewritten for the voice that it holds. -/
theorem State.putVoice_countsHold {s : State} {v : Nat} {x y : Voice} (voice : s.voice? v = some y)
    (same : x.handle = y.handle) (holds : s.CountsHold) : (s.putVoice v x).CountsHold := by
  obtain ⟨voicesRise, samplesRise, listed, counted, played⟩ := holds
  have playing (h : Nat) : (s.putVoice v x).playing h = s.playing h := by
    have tally := Table.tally_insert (playsEntry h) voicesRise v x
    rw [show Table.get? s.voices v = some y from voice, tallyOf_playsEntry, tallyOf_playsEntry, same] at tally
    exact Nat.add_right_cancel tally
  refine ⟨Table.rising_insert voicesRise v x, samplesRise, listed, fun h e is => playing h ▸ counted h e is, ?_⟩
  intro w z is
  rw [State.putVoice_voice?] at is
  split at is
  · cases is
    rw [same]
    exact played v y voice
  · exact played w z is

/-- R17: a voice in a FREE record is counted on the entry that it plays, which is READY. -/
theorem State.countVoice_countsHold {s : State} {v : Nat} {x : Voice} {e : SampleEntry} (free : s.voice? v = none)
    (entry : s.entry? x.handle = some e) (ready : e.state = .ready) (holds : s.CountsHold) :
    ((s.putVoice v x).countVoice x.handle).CountsHold := by
  obtain ⟨voicesRise, samplesRise, listed, counted, played⟩ := holds
  have playing (h : Nat) : (s.putVoice v x).playing h = s.playing h + if x.handle = h then 1 else 0 := by
    have tally := Table.tally_insert (playsEntry h) voicesRise v x
    rw [show Table.get? s.voices v = none from free, tallyOf_playsEntry, tallyOf_none] at tally
    exact tally
  have entryNow : (s.putVoice v x).entry? x.handle = some e := entry
  rw [State.countVoice, entryNow]
  refine ⟨Table.rising_insert voicesRise v x, Table.rising_insert samplesRise _ _, ?_, fun h f is => ?_, fun w z is => ?_⟩
  · intro l h mem
    obtain ⟨f, listedEntry, priming, lane⟩ := listed l h mem
    refine ⟨f, ?_, priming, lane⟩
    rw [State.putEntry_entry?, if_neg]
    · exact listedEntry
    · rintro rfl
      obtain rfl : e = f := Option.some.inj (entry.symm.trans listedEntry)
      rw [ready] at priming
      cases priming
  · show f.refCount = (s.putVoice v x).playing h ∧ _
    rw [playing]
    rw [State.putEntry_entry?] at is
    split at is
    case isTrue same =>
      cases is
      refine ⟨?_, fun _ => .inl ready⟩
      rw [if_pos same.symm, same, ← (counted _ e entry).1]
    case isFalse other =>
      rw [if_neg (Ne.symm other)]
      exact counted h f is
  · rw [State.putEntry_entry?]
    split
    · rfl
    · have inVoices : (s.putVoice v x).voice? w = some z := is
      rw [State.putVoice_voice?] at inVoices
      split at inVoices
      · cases inVoices
        contradiction
      · exact played w z inVoices

/-- R17: a voice that ends is taken off the count of the entry that it plays, and a RETIRING entry that no other voice
plays becomes EMPTY. -/
theorem State.uncountVoice_countsHold {s : State} {v : Nat} {x : Voice} (voice : s.voice? v = some x)
    (holds : s.CountsHold) : ((s.uncountVoice x.handle).freeVoice v).CountsHold := by
  obtain ⟨voicesRise, samplesRise, listed, counted, played⟩ := holds
  obtain ⟨e, entry⟩ := Option.isSome_iff_exists.mp (played v x voice)
  obtain ⟨count, inUse⟩ := counted _ e entry
  have positive : 0 < e.refCount := count ▸ State.playing_pos voice
  have playing (h : Nat) : (s.freeVoice v).playing h + (if x.handle = h then 1 else 0) = s.playing h := by
    have tally := Table.tally_erase (playsEntry h) voicesRise v
    rwa [show Table.get? s.voices v = some x from voice, tallyOf_playsEntry] at tally
  have notListed (l : LaneId) : x.handle ∉ (s.lane l).primingList := by
    intro mem
    obtain ⟨f, listedEntry, priming, -⟩ := listed l _ mem
    obtain rfl : e = f := Option.some.inj (entry.symm.trans listedEntry)
    rcases inUse positive with is | is <;> rw [is] at priming <;> cases priming
  have stillThere {w : Nat} {z : Voice} (is : (s.freeVoice v).voice? w = some z) : s.voice? w = some z := by
    rw [State.freeVoice_voice?] at is
    split at is
    · cases is
    · exact is
  rw [State.uncountVoice, entry]
  dsimp only
  split
  case isTrue last =>
    refine ⟨Table.rising_erase voicesRise v, Table.rising_erase samplesRise _, ?_, fun h f is => ?_, fun w z is => ?_⟩
    · intro l h mem
      obtain ⟨f, listedEntry, rest⟩ := listed l h mem
      refine ⟨f, ?_, rest⟩
      show (s.clearEntry x.handle).entry? h = some f
      rw [State.clearEntry_entry?, if_neg]
      · exact listedEntry
      · rintro rfl
        exact notListed l mem
    · have is : (s.clearEntry x.handle).entry? h = some f := is
      rw [State.clearEntry_entry?] at is
      split at is
      · cases is
      case isFalse other =>
        have same := playing h
        rw [if_neg (Ne.symm other), Nat.add_zero] at same
        show f.refCount = (s.freeVoice v).playing h ∧ _
        exact same ▸ counted h f is
    · show ((s.clearEntry x.handle).entry? z.handle).isSome = true
      rw [State.clearEntry_entry?]
      split
      case isTrue alone =>
        have left := State.playing_pos (s := s.freeVoice v) is
        have one := playing x.handle
        rw [alone] at left
        rw [if_pos rfl, ← count] at one
        omega
      case isFalse => exact played w z (stillThere is)
  case isFalse =>
    refine ⟨Table.rising_erase voicesRise v, Table.rising_insert samplesRise _ _, ?_, fun h f is => ?_, fun w z is => ?_⟩
    · intro l h mem
      obtain ⟨f, listedEntry, rest⟩ := listed l h mem
      refine ⟨f, ?_, rest⟩
      show (s.putEntry x.handle { e with refCount := e.refCount - 1 }).entry? h = some f
      rw [State.putEntry_entry?, if_neg]
      · exact listedEntry
      · rintro rfl
        exact notListed l mem
    · have is : (s.putEntry x.handle { e with refCount := e.refCount - 1 }).entry? h = some f := is
      show f.refCount = (s.freeVoice v).playing h ∧ _
      rw [State.putEntry_entry?] at is
      split at is
      case isTrue same =>
        cases is
        subst same
        have one := playing x.handle
        rw [if_pos rfl, ← count] at one
        exact ⟨by dsimp only; omega, fun _ => inUse positive⟩
      case isFalse other =>
        have same := playing h
        rw [if_neg (Ne.symm other), Nat.add_zero] at same
        exact same ▸ counted h f is
    · show ((s.putEntry x.handle { e with refCount := e.refCount - 1 }).entry? z.handle).isSome = true
      rw [State.putEntry_entry?]
      split
      · rfl
      · exact played w z (stillThere is)

/-- R57: of what the counts rest on, an ending voice leaves its record and its count. -/
theorem State.endVoiceAt_sameCounts {s : State} {v : Nat} {x : Voice} (voice : s.voice? v = some x) (r : EndReason)
    (p : Int) : ((s.uncountVoice x.handle).freeVoice v).SameCounts (s.endVoiceAt v r p) := by
  have cancelled (t : State) : t.SameCounts (t.cancelRing v) :=
    (t.cancelRing_lanesOnly v).sameCounts (by decide) (t.cancelRing_goes v).only (by decide) (by decide)
  have uncounted : (s.uncountVoice x.handle).SameCounts ((s.appendEnd (x.endRecord r p)).uncountVoice x.handle) := by
    have same : (s.appendEnd (x.endRecord r p)).entry? x.handle = s.entry? x.handle := rfl
    unfold State.uncountVoice
    rw [same]
    split
    · split <;> exact ⟨rfl, rfl, fun _ => rfl⟩
    · exact ⟨rfl, rfl, fun _ => rfl⟩
  have freed {a b : State} (h : a.SameCounts b) : (a.freeVoice v).SameCounts (b.freeVoice v) :=
    ⟨congrArg (Table.erase · v) h.voices, h.samples, h.lists⟩
  rw [State.endVoiceAt, voice]
  exact freed (uncounted.trans (cancelled _))

theorem State.endVoiceAt_countsHold {s : State} (holds : s.CountsHold) (v : Nat) (r : EndReason) (p : Int) :
    (s.endVoiceAt v r p).CountsHold := by
  cases voice : s.voice? v with
  | none => rwa [State.endVoiceAt, voice]
  | some x => exact (State.endVoiceAt_sameCounts voice r p).countsHold (State.uncountVoice_countsHold voice holds)

theorem State.endVoice_countsHold {s : State} (holds : s.CountsHold) (v : Nat) (r : EndReason) :
    (s.endVoice v r).CountsHold := by
  unfold State.endVoice
  split
  · exact holds
  · exact State.endVoiceAt_countsHold holds _ _ _

theorem State.endAllVoices_countsHold {s : State} (holds : s.CountsHold) : s.endAllVoices.CountsHold :=
  State.foldl_countsHold (fun _ v h => State.endVoice_countsHold h v .cadence) _ holds

theorem State.judgeLate_countsHold {s : State} (holds : s.CountsHold) (v : Nat) (q : PeriodIndex) :
    (s.judgeLate v q).CountsHold := by
  unfold State.judgeLate
  split
  · exact holds
  case h_2 x voice =>
    split
    · have shifted (t : State) (d : PeriodIndex) : t.SameCounts (t.shiftDeadlines v d) :=
        (t.shiftDeadlines_lanesOnly v d).sameCounts (by decide) (t.shiftDeadlines_goes v d).only (by decide) (by decide)
      refine ((State.raise_sameCounts _ _).trans (shifted _ _)).countsHold ?_
      exact State.putVoice_countsHold voice rfl holds
    · exact holds

theorem State.judgeAllLate_countsHold {s : State} (holds : s.CountsHold) (q : PeriodIndex) :
    (s.judgeAllLate q).CountsHold :=
  State.foldl_countsHold (fun _ v h => State.judgeLate_countsHold h v q) _ holds

theorem State.refuseStart_sameCounts (s : State) (tag : Tag) (r : EndReason) : s.SameCounts (s.refuseStart tag r) :=
  (s.refuseStart_goes tag r).only.sameCounts (by decide) (by decide) (by decide)

theorem State.acceptStart_countsHold {s : State} {v : Nat} {x : Voice} {f : SampleEntry} (free : s.voice? v = none)
    (entry : s.entry? x.handle = some f) (ready : f.state = .ready) (holds : s.CountsHold) (e : SampleEntry) (a : Nat) :
    (s.acceptStart v e x a).CountsHold := by
  have counted := State.countVoice_countsHold free entry ready holds
  have filled (t : State) : t.SameCounts (t.prefill v x e) :=
    (t.prefill_lanesOnly v x e).sameCounts (by decide) (t.prefill_goes v x e).only (by decide) (by decide)
  have advanced (t : State) (b : Articulation) : t.SameCounts (t.putArticulation a b) := ⟨rfl, rfl, fun _ => rfl⟩
  have ordered (t : State) (o : StartOrder) : t.SameCounts (t.setNextOrder o) := ⟨rfl, rfl, fun _ => rfl⟩
  have before := (((ordered _ (s.nextOrder + 1)).trans (advanced _ (s.articulation a).advance)).trans
    (filled _)).countsHold counted
  unfold State.acceptStart
  dsimp only
  split
  · exact before
  · exact State.judgeLate_countsHold before _ _

/-- R17: an entry that is READY outlasts the voices that play it. -/
theorem State.endVoice_ready {s : State} {h : Nat} {e : SampleEntry} (entry : s.entry? h = some e)
    (ready : e.state = .ready) (v : Nat) (r : EndReason) :
    ∃ f, (s.endVoice v r).entry? h = some f ∧ f.state = .ready := by
  unfold State.endVoice
  split
  · exact ⟨e, entry, ready⟩
  case h_2 x voice =>
    rw [State.entry?_congr (State.endVoiceAt_sameCounts voice r x.emit).samples]
    show ∃ f, (s.uncountVoice x.handle).entry? h = some f ∧ f.state = .ready
    unfold State.uncountVoice
    split
    case h_1 f plays =>
      by_cases same : h = x.handle
      · subst same
        obtain rfl : e = f := Option.some.inj (entry.symm.trans plays)
        rw [if_neg (by simp [ready]), State.putEntry_entry?, if_pos rfl]
        exact ⟨_, rfl, ready⟩
      · split
        · rw [State.clearEntry_entry?, if_neg same]
          exact ⟨e, entry, ready⟩
        · rw [State.putEntry_entry?, if_neg same]
          exact ⟨e, entry, ready⟩
    case h_2 => exact ⟨e, entry, ready⟩

theorem State.uncountVoice_zones (s : State) (h : Nat) : (s.uncountVoice h).library.zones = s.library.zones := by
  unfold State.uncountVoice
  split
  · split <;> rfl
  · rfl

theorem State.endVoice_zone (s : State) (v : Nat) (r : EndReason) (z : Nat) : (s.endVoice v r).zone z = s.zone z := by
  have ended (p : Int) : (s.endVoiceAt v r p).library.zones = s.library.zones := by
    unfold State.endVoiceAt
    split
    · rfl
    · rw [(State.freeVoice_goes _ _).only.library (by decide), (State.cancelRing_goes _ _).only.library (by decide),
        State.uncountVoice_zones, (State.appendEnd_goes _ _).only.library (by decide)]
  unfold State.endVoice
  split
  · rfl
  · rw [State.zone, ended]
    rfl

theorem State.firstFree_voice? {s : State} (rise : Table.Rising s.voices) :
    s.voice? (Table.firstFree s.voices 0) = none :=
  Table.get?_firstFree rise fun _ _ => Nat.zero_le _

theorem State.allocateStart_countsHold {s : State} {z : Nat} {e : SampleEntry}
    (entry : s.entry? (s.zone z).handle = some e) (ready : e.state = .ready) (holds : s.CountsHold) (tag : Tag)
    (a n : Nat) (p : PeriodIndex) (o c : Nat) : (s.allocateStart e tag a z n p o c).CountsHold := by
  unfold State.allocateStart
  split
  · exact State.acceptStart_countsHold (State.firstFree_voice? holds.1) entry ready holds _ _
  split
  · exact (s.refuseStart_sameCounts _ _).countsHold holds
  case h_2 v victim _ =>
    obtain ⟨f, still, stillReady⟩ := State.endVoice_ready entry ready v .stolen
    have freed : (s.endVoice v .stolen).voice? v = none := by rw [State.endVoice_voice?, if_pos rfl]
    have played : (s.endVoice v .stolen).entry? ((s.endVoice v .stolen).zone z).handle = some f := by
      rw [State.endVoice_zone, still]
    have ended := State.endVoice_countsHold holds v .stolen
    generalize s.endVoice v .stolen = t at freed played ended
    have told := (t.raise_sameCounts (.voiceStolen victim.tag tag)).countsHold ended
    refine State.acceptStart_countsHold ?_ ?_ stillReady told _ _
    · exact freed
    · exact played

theorem State.startRefusal?_none {s : State} {entry : Option SampleEntry} (h : s.startRefusal? entry = none) :
    ∃ e, entry = some e ∧ e.state = .ready := by
  unfold State.startRefusal? at h
  split at h
  · cases h
  case h_2 e =>
    refine ⟨e, rfl, ?_⟩
    split at h <;> first | assumption | cases h

theorem State.takeStart_countsHold {s : State} (holds : s.CountsHold) (tag : Tag) (a n w : Nat) (p : PeriodIndex)
    (o c : Nat) : (s.takeStart tag a n w p o c).CountsHold := by
  unfold State.takeStart
  split
  · exact (s.raise_sameCounts _).countsHold holds
  split
  · exact (s.refuseStart_sameCounts _ _).countsHold holds
  split
  · exact (s.refuseStart_sameCounts _ _).countsHold holds
  · exact holds
  case h_3 e passed entry =>
    obtain ⟨f, same, ready⟩ := State.startRefusal?_none passed
    rw [entry] at same
    cases same
    exact State.allocateStart_countsHold entry ready holds _ _ _ _ _ _

theorem State.applyRelease_countsHold {s : State} {v : Nat} {x : Voice} (voice : s.voice? v = some x)
    (holds : s.CountsHold) (p : Int) : (s.applyRelease v x p).CountsHold := by
  unfold State.applyRelease
  split
  · exact State.endVoice_countsHold holds _ _
  · exact State.putVoice_countsHold voice rfl holds

theorem State.takeRelease_countsHold {s : State} (holds : s.CountsHold) (tag : Tag) (p : PeriodIndex) (o : Nat) :
    (s.takeRelease tag p o).CountsHold := by
  unfold State.takeRelease
  split
  · exact (s.raise_sameCounts _).countsHold holds
  split
  · exact holds
  case h_2 v _ x voice =>
    split
    · exact holds
    split
    · exact State.applyRelease_countsHold voice holds _
    · refine State.applyRelease_countsHold ?_ ((s.raise_sameCounts _).countsHold holds) _
      exact voice

theorem State.stopVoice_countsHold {s : State} (holds : s.CountsHold) (v : Nat) : (s.stopVoice v).CountsHold := by
  unfold State.stopVoice
  split
  · exact holds
  case h_2 x voice =>
    split
    · exact State.endVoice_countsHold holds _ _
    · exact State.putVoice_countsHold voice rfl holds
    · exact State.putVoice_countsHold voice rfl holds
    · exact holds

theorem State.takeStop_countsHold {s : State} (holds : s.CountsHold) (tag : Tag) : (s.takeStop tag).CountsHold := by
  unfold State.takeStop
  split
  · exact (s.raise_sameCounts _).countsHold holds
  · exact State.stopVoice_countsHold holds _

theorem State.takeStopAll_countsHold {s : State} (holds : s.CountsHold) : s.takeStopAll.CountsHold :=
  State.foldl_countsHold (fun _ v h => State.stopVoice_countsHold h v) _ holds

/-! ### The pass -/

theorem enterBlock_handle (p : Nat) (x : Voice) (e : SampleEntry) : (enterBlock p x e).handle = x.handle := by
  unfold enterBlock
  dsimp only
  split <;> rfl

theorem State.renderVoice_countsHold {s : State} {v : Nat} {x : Voice} (voice : s.voice? v = some x)
    (holds : s.CountsHold) (q : PeriodIndex) (e : SampleEntry) : (s.renderVoice q v x e).CountsHold := by
  have passed (t : State) (y : Voice) : t.SameCounts (t.passRendered v y) := by
    unfold State.passRendered
    split
    · exact .refl t
    case h_2 k _ =>
      have freed : t.SameCounts (t.passChunk v y k) :=
        (t.passChunk_lanesOnly v y k).sameCounts (by decide) (t.passChunk_goes v y k).only (by decide) (by decide)
      dsimp only
      split
      · exact freed
      · exact freed.trans ((State.setPass_changes _ _).sameCounts (by decide) (by decide) (by decide))
  have settled (t : State) (ht : t.CountsHold) (y : Voice) (b : Option BlockEnding) (d : Disposition) :
      (t.settleVoice v y b d).CountsHold := by
    unfold State.settleVoice
    split
    · exact State.endVoiceAt_countsHold ht _ _ _
    · split
      · exact State.endVoiceAt_countsHold ht _ _ _
      · exact ht
  have written (t : State) (same : s.SameCounts t) (r : Rendered) (d : Disposition) :
      (t.putVoice v (advanceVoice s.config.period (enterBlock s.config.period x e) r d)).CountsHold := by
    have voiceT : t.voice? v = some x := by rw [State.voice?, same.voices]; exact voice
    exact State.putVoice_countsHold voiceT (enterBlock_handle _ _ _) (same.countsHold holds)
  have told (r : Rendered) (y : Voice) : s.SameCounts ((s.raiseBlockEvents x q r).passRendered v y) :=
    ((s.raiseBlockEvents_goes x q r).only.sameCounts (by decide) (by decide) (by decide)).trans (passed _ _)
  unfold State.renderVoice
  dsimp only
  refine settled _ (written _ ?_ _ _) _ _ _
  split
  · exact (told _ _).trans ((State.offer_goes _ _ _).only.sameCounts (by decide) (by decide) (by decide))
  · exact told _ _

theorem State.renderTurn_countsHold {s : State} (holds : s.CountsHold) (q : PeriodIndex) (v : Nat) :
    (s.renderTurn q v).CountsHold := by
  unfold State.renderTurn
  refine ((State.passTurn_goes _ _).only.sameCounts (by decide) (by decide) (by decide)).countsHold ?_
  unfold State.renderRecord
  split
  · exact holds
  case h_2 voice =>
    split
    · exact holds
    split
    · exact State.renderVoice_countsHold voice holds _ _
    · exact holds

theorem State.renderTurns_countsHold {s : State} (holds : s.CountsHold) (q : PeriodIndex) (l : List Nat) :
    (s.renderTurns q l).CountsHold :=
  State.foldl_countsHold (fun _ v h => State.renderTurn_countsHold h q v) l holds

theorem State.beginPass_countsHold {s : State} (holds : s.CountsHold) (q : PeriodIndex) : (s.beginPass q).CountsHold := by
  refine State.renderTurns_countsHold ?_ _ _
  exact State.SameCounts.countsHold ⟨rfl, rfl, fun _ => rfl⟩ holds

/-! ### The tracker -/

theorem State.openPass_sameCounts (s : State) (q : PeriodIndex) (w : Nat) : s.SameCounts (s.openPass q w) :=
  (s.openPass_goes q w).only.sameCounts (by decide) (by decide) (by decide)

theorem State.enterLocked_sameCounts (s : State) : s.SameCounts s.enterLocked := ⟨rfl, rfl, fun _ => rfl⟩

theorem State.lock_countsHold {s : State} (holds : s.CountsHold) (n : PeriodIndex) : (s.lock n).CountsHold := by
  have locked := s.enterLocked_sameCounts.countsHold holds
  unfold State.lock
  dsimp only
  split
  · refine (State.openPass_sameCounts _ _ _).countsHold (State.judgeAllLate_countsHold ?_ _)
    exact (State.setCadence_sameCounts _ _).countsHold locked
  · split
    · exact (State.openPass_sameCounts _ _ _).countsHold locked
    · refine ((State.setCadence_sameCounts _ _).trans (State.openPass_sameCounts _ _ _)).countsHold ?_
      exact State.endAllVoices_countsHold ((State.raise_sameCounts _ _).countsHold locked)

theorem State.judgeTick_countsHold {s : State} (holds : s.CountsHold) (n : PeriodIndex) (a : Nat) :
    (s.judgeTick n a).CountsHold := by
  have told : (s.setCadence { s.cadence with lastTick := some n }).CountsHold :=
    (s.setCadence_sameCounts _).countsHold holds
  have candidate (t : State) : t.SameCounts (t.becomeCandidate n a) := ⟨rfl, rfl, fun _ => rfl⟩
  have running {t : State} (ht : t.CountsHold) : (t.judgeRunning n a).CountsHold := by
    unfold State.judgeRunning
    split
    · exact ht
    · split
      · exact ((State.expectedTick_goes _ _ _).only.sameCounts (by decide) (by decide) (by decide)).countsHold ht
      · exact ((State.otherTick_goes _ _ _).only.sameCounts (by decide) (by decide) (by decide)).countsHold ht
  unfold State.judgeTick
  dsimp only
  split
  · exact (candidate _).countsHold told
  · exact (candidate _).countsHold told
  · unfold State.judgeCandidate
    split
    · exact (State.setCadence_sameCounts _ _).countsHold told
    · split
      · exact State.lock_countsHold told n
      · exact (State.setCadence_sameCounts _ _).countsHold told
  · exact running told
  · exact running told

theorem State.judgeExpiry_countsHold {s : State} (holds : s.CountsHold) : s.judgeExpiry.CountsHold := by
  have lost : s.enterLost.CountsHold := by
    have entered (c : Cadence) : ((s.setCadence c).raiseCadence s.cadence).CountsHold :=
      ((s.setCadence_sameCounts c).trans (State.raise_sameCounts _ _)).countsHold holds
    unfold State.enterLost
    dsimp only
    split
    · exact entered _
    · exact State.endAllVoices_countsHold (entered _)
  have covered (q : PeriodIndex) : (s.coverMissed q).CountsHold :=
    ((s.coverMissed_goes q).only.sameCounts (by decide) (by decide) (by decide)).countsHold holds
  unfold State.judgeExpiry
  split
  · split
    · exact covered _
    · exact lost
  · split
    · exact covered _
    · exact lost
  · exact holds

theorem State.actOnLimit_sameCounts (s : State) : s.SameCounts s.actOnLimit :=
  s.actOnLimit_goes.only.sameCounts (by decide) (by decide) (by decide)

theorem State.afterEvent_countsHold {s : State} (holds : s.CountsHold) : s.afterEvent.CountsHold := by
  unfold State.afterEvent
  split
  · exact State.beginPass_countsHold holds _
  · exact s.actOnLimit_sameCounts.countsHold holds

theorem State.takeWaiting_countsHold {s : State} (holds : s.CountsHold) (i : Waiting) : (s.takeWaiting i).CountsHold := by
  cases i with
  | tick n a => exact State.afterEvent_countsHold (State.judgeTick_countsHold holds n a)
  | expiry a => exact State.afterEvent_countsHold (State.judgeExpiry_countsHold holds)

theorem State.takeAllWaiting_countsHold {n : Nat} {s : State} (holds : s.CountsHold) :
    (State.takeAllWaiting n s).CountsHold := by
  induction n generalizing s with
  | zero => exact holds
  | succ n ih =>
    unfold State.takeAllWaiting
    split
    · exact holds
    split
    · exact holds
    · exact ih (State.takeWaiting_countsHold ((State.setCadence_sameCounts _ _).countsHold holds) _)

theorem State.readBefore_countsHold {take : State → State} (h : ∀ u : State, u.CountsHold → (take u).CountsHold)
    {s : State} (holds : s.CountsHold) : (s.readBefore take).CountsHold := by
  unfold State.readBefore
  split
  · exact h _ ((s.readOut_changes.sameCounts (by decide) (by decide) (by decide)).countsHold holds)
  · exact h s holds

end Sys2Proof.Machine
end

section
/-! SUPPORT. Reference counts over the sample map's operations and over every command: only a PRIMING entry finishes or
fails, and only an entry that no voice plays goes. -/

namespace Sys2Proof.Machine

/-! ### One entry -/

/-- R17: an entry that no voice plays, with what its count says of it. -/
theorem State.CountsHold.of_priming {s : State} (holds : s.CountsHold) {h : Nat} {e : SampleEntry}
    (entry : s.entry? h = some e) (priming : e.state = .priming) : e.refCount = 0 := by
  by_contra used
  obtain ⟨-, -, -, counted, -⟩ := holds
  rcases (counted h e entry).2 (Nat.pos_of_ne_zero used) with is | is <;> rw [priming] at is <;> cases is

/-- R17: an entry rewritten with its state, lane and count. -/
theorem State.putEntry_countsHold {s : State} {h : Nat} {e f : SampleEntry} (entry : s.entry? h = some e)
    (state : f.state = e.state) (lane : f.lane = e.lane) (count : f.refCount = e.refCount) (holds : s.CountsHold) :
    (s.putEntry h f).CountsHold := by
  obtain ⟨voicesRise, samplesRise, listed, counted, played⟩ := holds
  refine ⟨voicesRise, Table.rising_insert samplesRise _ _, fun l g mem => ?_, fun g d is => ?_, fun v x is => ?_⟩
  · obtain ⟨d, listedEntry, priming, on⟩ := listed l g mem
    rw [State.putEntry_entry?]
    split
    case isTrue same =>
      subst same
      obtain rfl : e = d := Option.some.inj (entry.symm.trans listedEntry)
      exact ⟨f, rfl, state.trans priming, lane.trans on⟩
    case isFalse => exact ⟨d, listedEntry, priming, on⟩
  · rw [State.putEntry_entry?] at is
    split at is
    case isTrue same =>
      cases is
      subst same
      rw [count, state]
      exact counted _ e entry
    case isFalse => exact counted g d is
  · rw [State.putEntry_entry?]
    split
    · rfl
    · exact played v x is

/-- The entries apart from one handle, and a list without it, as a priming sample leaves its lane's list. -/
theorem State.leavePriming_listed {s t : State} {l : LaneId} {h : Nat} (listed : s.PrimingListed)
    (on : ∀ k, k ≠ l → h ∉ (s.lane k).primingList) (lists : ∀ k, (t.lane k).primingList = (s.lane k).primingList)
    (entries : ∀ g, g ≠ h → t.entry? g = s.entry? g) : (t.leavePriming l h).PrimingListed := by
  intro k g mem
  have inLists : g ∈ (s.lane k).primingList ∧ g ≠ h := by
    rw [State.leavePriming, State.lane_setLane] at mem
    split at mem
    case isTrue same =>
      obtain ⟨before, other⟩ := List.mem_filter.mp mem
      rw [lists] at before
      exact ⟨same ▸ before, bne_iff_ne.mp other⟩
    case isFalse other =>
      rw [lists] at mem
      exact ⟨mem, fun same => on k other (same ▸ mem)⟩
  obtain ⟨before, other⟩ := inLists
  obtain ⟨e, entry, rest⟩ := listed k g before
  exact ⟨e, (entries g other).trans entry, rest⟩

/-- R7: a handle is on the list of its entry's lane alone. -/
theorem State.PrimingListed.onOne {s : State} (listed : s.PrimingListed) {h : Nat} {e : SampleEntry}
    (entry : s.entry? h = some e) (k : LaneId) (other : k ≠ e.lane) : h ∉ (s.lane k).primingList := by
  intro mem
  obtain ⟨f, is, -, on⟩ := listed k h mem
  obtain rfl : e = f := Option.some.inj (entry.symm.trans is)
  exact other on.symm

/-- R11, R14: a PRIMING entry becomes READY or FAULTED and leaves the list. -/
theorem State.primed_countsHold {s : State} {l : LaneId} {h : Nat} {e f : SampleEntry} (entry : s.entry? h = some e)
    (priming : e.state = .priming) (on : e.lane = l) (count : f.refCount = e.refCount) (holds : s.CountsHold) :
    ((s.putEntry h f).leavePriming l h).CountsHold := by
  have unused := holds.of_priming entry priming
  obtain ⟨voicesRise, samplesRise, listed, counted, played⟩ := holds
  refine ⟨voicesRise, Table.rising_insert samplesRise _ _, ?_, fun g d is => ?_, fun v x is => ?_⟩
  · refine State.leavePriming_listed listed (fun k other => listed.onOne entry k (on ▸ other)) (fun _ => rfl) ?_
    intro g other
    rw [State.putEntry_entry?, if_neg other]
  · have is : (s.putEntry h f).entry? g = some d := is
    show d.refCount = s.playing g ∧ _
    rw [State.putEntry_entry?] at is
    split at is
    case isTrue same =>
      cases is
      subst same
      rw [count]
      exact ⟨(counted _ e entry).1, fun used => absurd used (by omega)⟩
    case isFalse => exact counted g d is
  · show ((s.putEntry h f).entry? x.handle).isSome = true
    rw [State.putEntry_entry?]
    split
    · rfl
    · exact played v x is

/-- R16: an entry that no voice plays and no list names becomes EMPTY. -/
theorem State.clearEntry_countsHold {s : State} {h : Nat} {e : SampleEntry} (entry : s.entry? h = some e)
    (unused : e.refCount = 0) (unlisted : ∀ l, h ∉ (s.lane l).primingList) (holds : s.CountsHold) :
    (s.clearEntry h).CountsHold := by
  obtain ⟨voicesRise, samplesRise, listed, counted, played⟩ := holds
  refine ⟨voicesRise, Table.rising_erase samplesRise _, fun l g mem => ?_, fun g d is => ?_, fun v x is => ?_⟩
  · obtain ⟨d, listedEntry, rest⟩ := listed l g mem
    refine ⟨d, ?_, rest⟩
    rw [State.clearEntry_entry?, if_neg]
    · exact listedEntry
    · rintro rfl
      exact unlisted l mem
  · rw [State.clearEntry_entry?] at is
    split at is
    · cases is
    · exact counted g d is
  · rw [State.clearEntry_entry?]
    split
    case isTrue same =>
      have playing := State.playing_pos (s := s) is
      rw [same, ← (counted h e entry).1, unused] at playing
      cases playing
    case isFalse => exact played v x is

/-! ### Priming -/

/-- R10, R11: the segment of a LIVE read belongs to the PRIMING entry at the head of the lane's list. -/
theorem State.CountsHold.of_segment {s : State} (holds : s.CountsHold) {l : LaneId} {h j : Nat} {g : Segment}
    (segment : s.outstandingSegment? l h j = some g) {e : SampleEntry} (entry : s.entry? h = some e) :
    e.state = .priming ∧ e.lane = l := by
  unfold State.outstandingSegment? at segment
  split at segment
  case isTrue head =>
    obtain ⟨-, -, listed, -, -⟩ := holds
    obtain ⟨f, is, rest⟩ := listed l h (List.mem_of_head? head)
    obtain rfl : e = f := Option.some.inj (entry.symm.trans is)
    exact rest
  case isFalse => cases segment

theorem State.countPrimingRead_sameCounts (s : State) (l : LaneId) : s.SameCounts (s.countPrimingRead l) :=
  (s.countPrimingRead_lanesOnly l).sameCounts (by decide) (s.countPrimingRead_goes l).only (by decide) (by decide)

theorem State.markSegment_sameCounts (s : State) (l : LaneId) (j : Nat) (g : Segment) :
    s.SameCounts (s.markSegment l j g) :=
  (s.markSegment_lanesOnly l j g).sameCounts (by decide) (s.markSegment_goes l j g).only (by decide) (by decide)

theorem State.finishPriming_countsHold {s : State} {l : LaneId} {h : Nat} {e : SampleEntry} (entry : s.entry? h = some e)
    (priming : e.state = .priming) (on : e.lane = l) (holds : s.CountsHold) : (s.finishPriming l h e).CountsHold := by
  unfold State.finishPriming
  split
  · exact (State.raise_sameCounts _ _).countsHold (State.primed_countsHold entry priming on rfl holds)
  · exact (State.raise_sameCounts _ _).countsHold (State.primed_countsHold entry priming on rfl holds)

theorem State.primingOk_countsHold {s : State} (holds : s.CountsHold) (l : LaneId) (h j : Nat) (data : List Byte) :
    (s.primingOk l h j data).CountsHold := by
  have counted := (s.countPrimingRead_sameCounts l).countsHold holds
  unfold State.primingOk
  dsimp only
  split
  case h_1 g e segment entry =>
    obtain ⟨priming, on⟩ := holds.of_segment segment entry
    have written (m : Memory) : s.SameCounts
        (((s.countPrimingRead l).markSegment l j { g with state := .done }).setHeadStore m) :=
      ((s.countPrimingRead_sameCounts l).trans (State.markSegment_sameCounts _ l j { g with state := .done })).trans
        ((State.setHeadStore_changes _ m).sameCounts (by decide) (by decide) (by decide))
    have advanced (m : Memory) (p : Nat) := State.putEntry_countsHold (f := { e with progress := p })
      ((State.entry?_congr (written m).samples h).trans entry) rfl rfl rfl ((written m).countsHold holds)
    split
    · refine State.finishPriming_countsHold ?_ priming on (advanced _ _)
      rw [State.putEntry_entry?, if_pos rfl]
    · exact advanced _ _
  case h_2 => exact counted

theorem State.failPriming_countsHold {s : State} {l : LaneId} {h : Nat} {e : SampleEntry} (entry : s.entry? h = some e)
    (priming : e.state = .priming) (on : e.lane = l) (holds : s.CountsHold) : (s.failPriming l h e).CountsHold := by
  have discarded : s.SameCounts (s.discardReads l h) :=
    (s.discardReads_lanesOnly l h).sameCounts (by decide) (s.discardReads_goes l h).only (by decide) (by decide)
  refine (State.raise_sameCounts _ _).countsHold ?_
  exact State.primed_countsHold (s := s.discardReads l h) entry priming on rfl (discarded.countsHold holds)

theorem State.primingFailed_countsHold {s : State} (holds : s.CountsHold) (l : LaneId) (h j a : Nat) (c : ReadCause) :
    (s.primingFailed l h j a c).CountsHold := by
  have counted : s.SameCounts ((s.raise (.readError l a c)).countPrimingRead l) :=
    (s.raise_sameCounts _).trans (State.countPrimingRead_sameCounts _ l)
  unfold State.primingFailed
  dsimp only
  split
  case h_1 g e segment entry =>
    obtain ⟨priming, on⟩ := holds.of_segment segment entry
    split
    · exact (counted.trans (State.markSegment_sameCounts _ _ _ _)).countsHold holds
    · exact State.failPriming_countsHold ((State.entry?_congr counted.samples h).trans entry) priming on
        (counted.countsHold holds)
  case h_2 => exact (s.countPrimingRead_sameCounts l).countsHold holds

/-! ### Reads -/

theorem State.releaseNumber_sameCounts (s : State) (l : LaneId) (n : Nat) (hold : Option Nat) :
    s.SameCounts (s.releaseNumber l n hold) :=
  (s.releaseNumber_lanesOnly l n hold).sameCounts (by decide) (s.releaseNumber_goes l n hold).only (by decide) (by decide)

theorem State.countFailure_sameCounts (s : State) (l : LaneId) : s.SameCounts (s.countFailure l) :=
  (s.countFailure_lanesOnly l).sameCounts (by decide) (s.countFailure_goes l).only (by decide) (by decide)

theorem State.resolveOk_countsHold {s : State} (holds : s.CountsHold) (l : LaneId) (o : ReadOwner) (data : List Byte) :
    (s.resolveOk l o data).CountsHold := by
  cases o with
  | stream v j p =>
    exact ((s.streamOk_lanesOnly v j p data).sameCounts (by decide) (s.streamOk_goes v j p data).only (by decide)
      (by decide)).countsHold holds
  | priming h j discard =>
    simp only [State.resolveOk]
    split
    · exact (s.countPrimingRead_sameCounts l).countsHold holds
    · exact State.primingOk_countsHold holds l h j data

theorem State.resolveFailed_countsHold {s : State} (holds : s.CountsHold) (l : LaneId) (o : ReadOwner) (a n : Nat)
    (c : ReadCause) : (s.resolveFailed l o a n c).CountsHold := by
  have counted := (s.countFailure_sameCounts l).countsHold holds
  cases o with
  | stream v j p =>
    have told : (s.countFailure l).SameCounts ((s.countFailure l).streamReadError v j l a c) :=
      (State.streamReadError_goes _ v j l a c).only.sameCounts (by decide) (by decide) (by decide)
    exact ((State.failPart_lanesOnly _ v j p l _ a n).sameCounts (by decide) (State.failPart_goes _ v j p l _ a n).only
      (by decide) (by decide)).countsHold (told.countsHold counted)
  | priming h j discard =>
    simp only [State.resolveFailed]
    split
    · exact (State.countPrimingRead_sameCounts _ l).countsHold counted
    · exact State.primingFailed_countsHold counted l h j a c

/-! ### Loads and retirement -/

/-- R6: a load writes an entry that was EMPTY, so that no voice plays it. -/
theorem State.storeLoad_countsHold {s : State} {h : Nat} {e : SampleEntry} (empty : s.entry? h = none)
    (unused : e.refCount = 0) (primes : e.headFrames ≠ 0 → e.state = .priming) (holds : s.CountsHold) :
    (s.storeLoad h e).CountsHold := by
  obtain ⟨voicesRise, samplesRise, listed, counted, played⟩ := holds
  have notPlayed : s.playing h = 0 := by
    by_contra used
    obtain ⟨row, mem⟩ := List.exists_mem_of_length_pos (Nat.pos_of_ne_zero used)
    obtain ⟨row, plays⟩ := List.mem_filter.mp mem
    have some := played _ _ (Table.get?_of_mem voicesRise row)
    rw [beq_iff_eq.mp plays, empty] at some
    cases some
  have counts (g : Nat) (d : SampleEntry) (is : (s.putEntry h e).entry? g = some d) :
      d.refCount = s.playing g ∧ (0 < d.refCount → d.state = .ready ∨ d.state = .retiring) := by
    rw [State.putEntry_entry?] at is
    split at is
    case isTrue same =>
      cases is
      subst same
      exact ⟨unused.trans notPlayed.symm, fun used => absurd used (by omega)⟩
    case isFalse => exact counted g d is
  have plays (v : Nat) (x : Voice) (is : s.voice? v = some x) : ((s.putEntry h e).entry? x.handle).isSome = true := by
    rw [State.putEntry_entry?]
    split
    · rfl
    · exact played v x is
  have still {l : LaneId} {g : Nat} (mem : g ∈ (s.lane l).primingList) :
      ∃ d, (s.putEntry h e).entry? g = some d ∧ d.state = .priming ∧ d.lane = l := by
    obtain ⟨d, is, rest⟩ := listed l g mem
    refine ⟨d, ?_, rest⟩
    rw [State.putEntry_entry?, if_neg]
    · exact is
    · rintro rfl
      rw [empty] at is
      cases is
  unfold State.storeLoad
  split
  · exact ⟨voicesRise, Table.rising_insert samplesRise _ _, fun l g => still, counts, plays⟩
  case isFalse head =>
    refine ⟨voicesRise, Table.rising_insert samplesRise _ _, fun l g mem => ?_, counts, plays⟩
    show ∃ d, (s.putEntry h e).entry? g = some d ∧ _
    rw [State.joinPriming, State.lane_setLane] at mem
    split at mem
    case isTrue same =>
      rcases List.mem_append.mp mem with before | joined
      · exact still (same ▸ before)
      · rw [List.mem_singleton.mp joined, State.putEntry_entry?, if_pos rfl]
        exact ⟨e, rfl, primes head, same.symm⟩
    case isFalse => exact still mem

theorem loadEntry_priming {b : List Byte} (h : (loadEntry b).headFrames ≠ 0) : (loadEntry b).state = .priming :=
  if_pos h

theorem State.reply_sameCounts (s : State) (r : Request) (a : Answer) : s.SameCounts (s.reply r a) :=
  (s.reply_changes r a).sameCounts (by decide) (by decide) (by decide)

theorem State.loadSample_countsHold {s : State} (holds : s.CountsHold) (r : Request) : (s.loadSample r).CountsHold := by
  unfold State.loadSample
  split
  · exact (s.reply_sameCounts _ _).countsHold holds
  case h_2 accepted =>
    have empty : s.entry? (loadHandle r.body) = none := by
      unfold State.loadRefusal? at accepted
      split at accepted
      · cases accepted
      split at accepted
      · cases accepted
      case isFalse absent => simpa using absent
    have stored := State.storeLoad_countsHold (e := loadEntry r.body) empty rfl loadEntry_priming holds
    have told := ((State.reply_sameCounts _ r (okWith (loadResult (loadEntry r.body)))).trans
      ((State.announceLoad_goes _ (loadHandle r.body) (loadEntry r.body)).only.sameCounts (by decide) (by decide)
        (by decide))).countsHold stored
    exact (State.dispatch_sameCounts _).countsHold told

theorem State.retireEntry_countsHold {s : State} {h : Nat} {e : SampleEntry} (entry : s.entry? h = some e)
    (holds : s.CountsHold) : (s.retireEntry h e).CountsHold := by
  have unlisted (state : e.state ≠ .priming) (l : LaneId) : h ∉ (s.lane l).primingList := by
    intro mem
    obtain ⟨f, is, priming, -⟩ := holds.2.2.1 l h mem
    obtain rfl : e = f := Option.some.inj (entry.symm.trans is)
    exact state priming
  unfold State.retireEntry
  split
  case h_1 priming =>
    have discarded : s.SameCounts (s.discardReads e.lane h) :=
      (s.discardReads_lanesOnly e.lane h).sameCounts (by decide) (s.discardReads_goes e.lane h).only (by decide)
        (by decide)
    have left : ((s.discardReads e.lane h).leavePriming e.lane h).CountsHold := by
      have held := discarded.countsHold holds
      obtain ⟨voicesRise, samplesRise, listed, counted, played⟩ := held
      refine ⟨voicesRise, samplesRise, ?_, counted, played⟩
      exact State.leavePriming_listed listed (fun k other => listed.onOne (s := s.discardReads e.lane h) entry k other)
        (fun _ => rfl) fun _ _ => rfl
    refine State.clearEntry_countsHold (e := e) entry (holds.of_priming entry priming) (fun l mem => ?_) left
    rw [State.leavePriming, State.lane_setLane] at mem
    split at mem
    · exact absurd rfl (bne_iff_ne.mp (List.mem_filter.mp mem).2)
    case isFalse other =>
      rw [discarded.lists] at mem
      exact holds.2.2.1.onOne entry l other mem
  case h_2 ready =>
    split
    case isTrue unused => exact State.clearEntry_countsHold entry unused (unlisted (by rw [ready]; decide)) holds
    case isFalse used =>
      have notListed := unlisted (by rw [ready]; decide)
      obtain ⟨voicesRise, samplesRise, listed, counted, played⟩ := holds
      refine ⟨voicesRise, Table.rising_insert samplesRise _ _, fun l g mem => ?_, fun g d is => ?_, fun v x is => ?_⟩
      · obtain ⟨d, listedEntry, rest⟩ := listed l g mem
        refine ⟨d, ?_, rest⟩
        rw [State.putEntry_entry?, if_neg]
        · exact listedEntry
        · rintro rfl
          exact notListed l mem
      · rw [State.putEntry_entry?] at is
        split at is
        case isTrue same =>
          cases is
          subst same
          exact ⟨(counted _ e entry).1, fun _ => .inr rfl⟩
        case isFalse => exact counted g d is
      · rw [State.putEntry_entry?]
        split
        · rfl
        · exact played v x is
  case h_3 faulted =>
    refine State.clearEntry_countsHold entry ?_ (unlisted (by rw [faulted]; decide)) holds
    by_contra used
    rcases (holds.2.2.2.1 h e entry).2 (Nat.pos_of_ne_zero used) with is | is <;> rw [faulted] at is <;> cases is
  case h_4 => exact holds

theorem State.retireSample_countsHold {s : State} (holds : s.CountsHold) (r : Request) :
    (s.retireSample r).CountsHold := by
  unfold State.retireSample
  dsimp only
  split
  · exact (s.reply_sameCounts _ _).countsHold holds
  split
  · exact (s.reply_sameCounts _ _).countsHold holds
  case h_2 entry =>
    exact (State.dispatch_sameCounts _).countsHold ((State.reply_sameCounts _ _ _).countsHold
      (State.retireEntry_countsHold entry holds))

/-! ### The soft reset -/

theorem Table.get?_filterMap {α : Type} (f : α → Option α) {t : Table α} (r : Table.Rising t) (k : Nat) :
    Table.get? (t.filterMap fun row => (f row.2).map fun b => (row.1, b)) k = (Table.get? t k).bind f := by
  induction t with
  | nil => rfl
  | cons row rest ih =>
    obtain ⟨i, a⟩ := row
    have tail := ih (List.Pairwise.of_cons r)
    rw [Table.get?_cons]
    by_cases same : i = k
    · have absent := Table.get?_none_of_rising r same.ge
      rw [absent] at tail
      rw [if_pos same, List.filterMap_cons]
      cases is : f a with
      | none => simpa [is] using tail
      | some b => simp [is, same, Table.get?_cons]
    · rw [if_neg same, List.filterMap_cons]
      cases is : f a with
      | none => simpa [is] using tail
      | some b => simpa [is, Table.get?_cons, same] using tail

theorem Table.rising_filterMap {α : Type} (f : α → Option α) {t : Table α} (r : Table.Rising t) :
    Table.Rising (t.filterMap fun row => (f row.2).map fun b => (row.1, b)) := by
  refine List.Pairwise.filterMap _ (fun x y less b hb c hc => ?_) r
  simp only [Option.map_eq_some_iff] at hb hc
  obtain ⟨_, -, rfl⟩ := hb
  obtain ⟨_, -, rfl⟩ := hc
  exact less

theorem State.softReset_entry? {s : State} (rise : Table.Rising s.library.samples) (h : Nat) :
    s.softReset.entry? h = (s.entry? h).bind resetEntry :=
  Table.get?_filterMap resetEntry rise h

theorem State.softReset_primingList (s : State) (l : LaneId) :
    (s.softReset.lane l).primingList = (s.lane l).primingList := by
  cases l <;> rfl

/-- R20: no voice is left, no entry is counted, and a PRIMING entry primes on. -/
theorem State.softReset_countsHold {s : State} (holds : s.CountsHold) : s.softReset.CountsHold := by
  obtain ⟨-, samplesRise, listed, -, -⟩ := holds
  refine ⟨List.Pairwise.nil, Table.rising_filterMap resetEntry samplesRise, fun l h mem => ?_, fun h e is => ?_,
    fun v x is => by cases is⟩
  · rw [State.softReset_primingList] at mem
    obtain ⟨e, entry, priming, on⟩ := listed l h mem
    rw [State.softReset_entry? samplesRise, entry]
    refine ⟨{ e with refCount := 0, progress := 0 }, ?_, priming, on⟩
    simp [resetEntry, priming]
  · rw [State.softReset_entry? samplesRise] at is
    obtain ⟨d, -, becomes⟩ := Option.bind_eq_some_iff.mp is
    have unused : e.refCount = 0 := by
      unfold resetEntry at becomes
      split at becomes <;> cases becomes <;> rfl
    exact ⟨unused, fun used => absurd used (by omega)⟩

theorem State.finishReset_countsHold {s : State} (holds : s.CountsHold) (r : Request) :
    (State.finishReset r s).CountsHold :=
  (State.dispatch_sameCounts _).countsHold ((State.reply_sameCounts _ r okAnswer).countsHold
    (State.softReset_countsHold holds))

theorem State.finishDeferred_countsHold {s : State} (holds : s.CountsHold) : s.finishDeferred.CountsHold := by
  have same {t : State} {ps : List Part} (h : s.Moves t ps) (v : Part.voices ∉ ps) (l : Part.library ∉ ps)
      (n : Part.lanes ∉ ps) : t.CountsHold := (h.only.sameCounts v l n).countsHold holds
  unfold State.finishDeferred
  split
  · exact holds
  case h_2 r busy =>
    unfold State.finishRequest
    split
    · exact same (State.finishConfigure_moves busy) (by decide) (by decide) (by decide)
    split
    · exact same (State.finishQueryVoice_moves busy) (by decide) (by decide) (by decide)
    split
    · exact same (State.finishQueryStatus_moves busy) (by decide) (by decide) (by decide)
    split
    · exact same (State.finishResync_moves busy) (by decide) (by decide) (by decide)
    split
    · exact State.finishReset_countsHold holds r
    · exact holds

/-! ### The commands -/

theorem State.completePass_sameCounts (s : State) (p : Pass) : s.SameCounts (s.completePass p) := by
  have refilled (t : State) : t.SameCounts (t.refillPassed p) :=
    (State.foldl_lanesOnly State.refillVoice_lanesOnly p.passed t).sameCounts (by decide) (t.refillPassed_goes p).only
      (by decide) (by decide)
  have told (t : State) : t.SameCounts (t.reportOverrun p) :=
    (t.reportOverrun_goes p).only.sameCounts (by decide) (by decide) (by decide)
  have flushed (t : State) : t.SameCounts t.flushEnds :=
    t.flushEnds_goes.only.sameCounts (by decide) (by decide) (by decide)
  have reported (t : State) : t.SameCounts (t.completionReports p) := by
    unfold State.completionReports
    dsimp only
    split <;> split
    · exact ((told t).trans (refilled _)).trans (flushed _)
    · exact ((refilled t).trans (flushed _)).trans (told _)
    · exact ((told t).trans (flushed _)).trans (refilled _)
    · exact ((flushed t).trans (told _)).trans (refilled _)
  have begun (q : Port) (c : Cadence) : s.SameCounts (((s.setPort q).setPass none).setCadence c) :=
    ⟨rfl, rfl, fun _ => rfl⟩
  have freeCounted (t : State) (n : Nat) : t.SameCounts (t.setFreeCount n) := ⟨rfl, rfl, fun _ => rfl⟩
  exact (((begun _ _).trans (reported _)).trans (State.dispatch_sameCounts _)).trans (freeCounted _ _)

theorem State.takeDeferred_countsHold {s : State} (holds : s.CountsHold) (n : Nat) :
    (s.takeDeferred n).CountsHold := by
  unfold State.takeDeferred
  split
  · exact State.finishDeferred_countsHold ((State.actOnLimit_sameCounts _).countsHold holds)
  · exact (State.actOnLimit_sameCounts _).countsHold (State.finishDeferred_countsHold holds)

theorem State.finishPass_countsHold {s : State} (holds : s.CountsHold) : s.finishPass.CountsHold := by
  unfold State.finishPass
  split
  · exact holds
  · exact (State.dispatch_sameCounts _).countsHold (State.readBefore_countsHold
      (fun u h => State.takeAllWaiting_countsHold h)
      (State.takeDeferred_countsHold ((State.completePass_sameCounts _ _).countsHold holds) _))

theorem execPassComplete_countsHold {elapsed : Nat} {s t : State} (holds : s.CountsHold)
    (next : execPassComplete elapsed s = .next t) : t.CountsHold := by
  unfold execPassComplete at next
  split at next
  · cases next; exact holds
  split at next
  · cases next
    exact State.finishPass_countsHold (State.renderTurns_countsHold ((s.setCadence_sameCounts _).countsHold holds) _ _)
  · cases next; exact holds

theorem execTick_countsHold {elapsed : Nat} {s t : State} (holds : s.CountsHold)
    (next : execTick elapsed s = .next t) : t.CountsHold := by
  unfold execTick at next
  split at next
  · cases next; exact holds
  split at next
  · cases next; exact holds
  dsimp only at next
  have timed (c : Cadence) (q : Port) : ((s.setCadence c).setPort q).CountsHold :=
    State.SameCounts.countsHold ⟨rfl, rfl, fun _ => rfl⟩ holds
  split at next <;> cases next
  · exact ((State.holdTick_goes _ _ _).only.sameCounts (by decide) (by decide) (by decide)).countsHold (timed _ _)
  · exact (State.dispatch_sameCounts _).countsHold (State.readBefore_countsHold
      (fun u h => State.afterEvent_countsHold (State.judgeTick_countsHold h _ _)) (timed _ _))

theorem execLocalPeriodTimerExpiry_countsHold {s t : State} (holds : s.CountsHold)
    (next : execLocalPeriodTimerExpiry s = .next t) : t.CountsHold := by
  unfold execLocalPeriodTimerExpiry at next
  split at next
  · cases next; exact holds
  split at next
  · cases next; exact holds
  dsimp only at next
  have expired (c : Cadence) : (s.setCadence c).CountsHold := (s.setCadence_sameCounts c).countsHold holds
  split at next <;> cases next
  · exact (State.setCadence_sameCounts _ _).countsHold (expired _)
  · exact (State.dispatch_sameCounts _).countsHold (State.readBefore_countsHold
      (fun u h => State.afterEvent_countsHold (State.judgeExpiry_countsHold h)) (expired _))

theorem State.popItem_countsHold {s : State} (holds : s.CountsHold) (rest : List VoiceItem) :
    (s.popItem rest).CountsHold :=
  State.SameCounts.countsHold ⟨rfl, rfl, fun _ => rfl⟩ holds

theorem State.finishItem_countsHold {s : State} (holds : s.CountsHold) : s.finishItem.CountsHold :=
  (State.dispatch_sameCounts _).countsHold
    (((State.setPort_changes _ _).sameCounts (by decide) (by decide) (by decide)).countsHold holds)

/-- The item commands: a pass under way or another head makes each wait. -/
theorem exec_item_countsHold {c : Instr} (item : c = .voiceStart ∨ c = .voiceRelease ∨ c = .voiceStop ∨ c = .stopAll)
    {s t : State} (holds : s.CountsHold) (next : exec c s = .next t) : t.CountsHold := by
  rcases item with rfl | rfl | rfl | rfl
  · change execVoiceStart s = _ at next
    unfold execVoiceStart at next
    split at next
    · cases next; exact holds
    split at next <;> cases next
    · exact State.finishItem_countsHold (State.takeStart_countsHold (State.popItem_countsHold holds _) _ _ _ _ _ _ _)
    · exact holds
  · change execVoiceRelease s = _ at next
    unfold execVoiceRelease at next
    split at next
    · cases next; exact holds
    split at next <;> cases next
    · exact State.finishItem_countsHold (State.takeRelease_countsHold (State.popItem_countsHold holds _) _ _ _)
    · exact holds
  · change execVoiceStop s = _ at next
    unfold execVoiceStop at next
    split at next
    · cases next; exact holds
    split at next <;> cases next
    · exact State.finishItem_countsHold (State.takeStop_countsHold (State.popItem_countsHold holds _) _)
    · exact holds
  · change execStopAll s = _ at next
    unfold execStopAll at next
    split at next
    · cases next; exact holds
    split at next <;> cases next
    · exact State.finishItem_countsHold (State.takeStopAll_countsHold (State.popItem_countsHold holds _))
    · exact holds

theorem execReadCompletion_countsHold {l : LaneId} {number : Fin 32} {status : ReadStatus} {data : List Byte}
    {s t : State} (holds : s.CountsHold) (next : execReadCompletion l number status data s = .next t) :
    t.CountsHold := by
  have released (hold : Option Nat) := (s.releaseNumber_sameCounts l number hold).countsHold holds
  unfold execReadCompletion at next
  split at next
  · cases next; exact holds
  split at next
  · cases next; exact holds
  · cases next
    exact (State.dispatch_sameCounts _).countsHold (released none)
  · split at next <;> cases next
    · exact (State.dispatch_sameCounts _).countsHold (State.resolveFailed_countsHold (released none) _ _ _ _ _)
    · have resolved := fun o d => State.resolveOk_countsHold (released none) l o d
      exact (State.dispatch_sameCounts _).countsHold (((State.useMissing_goes _ _ _).only.sameCounts (by decide)
        (by decide) (by decide)).countsHold (resolved _ _))

theorem execReadTimeout_countsHold {l : LaneId} {number : Fin 32} {s t : State} (holds : s.CountsHold)
    (next : execReadTimeout l number s = .next t) : t.CountsHold := by
  unfold execReadTimeout at next
  split at next <;> cases next
  · exact (State.dispatch_sameCounts _).countsHold (State.resolveFailed_countsHold
      ((s.releaseNumber_sameCounts l number _).countsHold holds) _ _ _ _ _)
  · exact holds
  · exact holds

/-- The parts of a lane that do not touch its priming list. -/
theorem State.setLane_sameCounts {s : State} {l : LaneId} {x : Lane} (same : x.primingList = (s.lane l).primingList) :
    s.SameCounts (s.setLane l x) := by
  refine ⟨rfl, rfl, fun k => ?_⟩
  rw [State.lane_setLane]
  split
  case isTrue is => rw [same, is]
  case isFalse => rfl

theorem execErrorWindowEnd_sameCounts {l : LaneId} {s t : State} (next : execErrorWindowEnd l s = .next t) :
    s.SameCounts t := by
  unfold execErrorWindowEnd at next
  dsimp only at next
  split at next
  · cases next; exact .refl s
  split at next <;> cases next
  · refine State.SameCounts.trans (State.setLane_sameCounts ?_) (State.raise_sameCounts _ _)
    rfl
  · exact State.setLane_sameCounts rfl

theorem execPresenceLost_sameCounts {l : LaneId} {s t : State} (next : execPresenceLost l s = .next t) :
    s.SameCounts t := by
  unfold execPresenceLost at next
  dsimp only at next
  split at next <;> cases next
  · have away : s.SameCounts ((s.setLane l (s.lane l).offline).raise (.laneState l (s.lane l).state .offline)) :=
      State.SameCounts.trans (State.setLane_sameCounts (x := (s.lane l).offline) rfl) (State.raise_sameCounts _ _)
    have resolved (u : State) (rows : Table ReadEntry) : u.SameCounts (rows.foldl (State.resolveOffline l) u) :=
      (State.foldl_lanesOnly (State.resolveOffline_lanesOnly l) rows u).sameCounts (by decide)
        (State.foldl_goes _ (fun v row => v.resolveOffline_goes l row) rows u).only (by decide) (by decide)
    have lost (u : State) : u.SameCounts (u.loseQueue l) :=
      (u.loseQueue_lanesOnly l).sameCounts (by decide) (u.loseQueue_goes l).only (by decide) (by decide)
    have counted (u : State) (n : Nat) : u.SameCounts (u.setLane l { u.lane l with primingOutstanding := n }) :=
      State.setLane_sameCounts rfl
    exact (((away.trans (resolved _ _)).trans (counted _ 0)).trans (lost _)).trans (State.dispatch_sameCounts _)
  · exact .refl s

theorem execPresenceReturned_sameCounts {l : LaneId} {s t : State} (next : execPresenceReturned l s = .next t) :
    s.SameCounts t := by
  unfold execPresenceReturned at next
  dsimp only at next
  split at next <;> cases next
  · exact .refl s
  · refine State.SameCounts.trans (State.SameCounts.trans (State.setLane_sameCounts ?_) (State.raise_sameCounts _ _))
      (State.dispatch_sameCounts _)
    rfl

/-- A management command whose own effect keeps the counts. -/
theorem State.serve_countsHold {s t : State} {fits : Request → Bool} {f : Request → State → State} (holds : s.CountsHold)
    (h : ∀ (r : Request) (u : State), u.CountsHold → (f r u).CountsHold) (next : s.serve fits f = .next t) :
    t.CountsHold := by
  rcases State.serve_next next with rfl | ⟨r, -, -, -, -, rfl⟩
  · exact holds
  · exact h r _ (((s.beginRequest_changes r).sameCounts (by decide) (by decide) (by decide)).countsHold holds)

/-- The entries are as they were after a load of the articulation tables. -/
theorem State.putZones_sameCounts (s : State) (b : List Byte) : s.SameCounts (s.putZones b) := by
  unfold State.putZones
  generalize List.range (zonesCount b) = l
  induction l generalizing s with
  | nil => exact .refl s
  | cons p rest ih =>
    have put : s.SameCounts (s.putZone (zonesFirst b + p) (zonesRecord b p)) := ⟨rfl, rfl, fun _ => rfl⟩
    exact put.trans (ih _)

theorem State.loadTables_countsHold {s t : State} (holds : s.CountsHold) (r : Request) (a : Answer)
    (same : s.SameCounts t) : (t.reply r a).CountsHold :=
  (same.trans (State.reply_sameCounts _ _ _)).countsHold holds

theorem exec_load_countsHold {c : Instr}
    (load : c = .loadArticulation ∨ c = .loadZones ∨ c = .loadCurve ∨ c = .loadMatrix) {s t : State}
    (holds : s.CountsHold) (next : exec c s = .next t) : t.CountsHold := by
  rcases load with rfl | rfl | rfl | rfl
  · refine State.serve_countsHold (f := fun r u => u.loadArticulation r) holds (fun r u hu => ?_) next
    unfold State.loadArticulation
    split <;> exact State.loadTables_countsHold hu _ _ ⟨rfl, rfl, fun _ => rfl⟩
  · refine State.serve_countsHold (f := fun r u => u.loadZones r) holds (fun r u hu => ?_) next
    unfold State.loadZones
    split
    · exact State.loadTables_countsHold hu _ _ (.refl u)
    · exact State.loadTables_countsHold hu _ _ (u.putZones_sameCounts _)
  · refine State.serve_countsHold (f := fun r u => u.loadCurve r) holds (fun r u hu => ?_) next
    unfold State.loadCurve
    split
    · exact State.loadTables_countsHold hu _ _ (.refl u)
    · split <;> exact State.loadTables_countsHold hu _ _ ⟨rfl, rfl, fun _ => rfl⟩
  · refine State.serve_countsHold (f := fun r u => u.loadMatrix r) holds (fun r u hu => ?_) next
    unfold State.loadMatrix
    dsimp only
    split <;> exact State.loadTables_countsHold hu _ _ ⟨rfl, rfl, fun _ => rfl⟩

theorem execPowerOn_countsHold {memory : Option (List Byte)} {present : PerLane Bool} {s t : State}
    (next : execPowerOn memory present s = .next t) : t.CountsHold := by
  cases next
  refine ⟨List.Pairwise.nil, List.Pairwise.nil, ?listed, ?counted, ?played⟩
  case listed =>
    intro l h mem
    cases l <;> cases mem
  case counted =>
    intro h e is
    cases is
  case played =>
    intro v x is
    cases is

theorem exec_countsHold {c : Instr} {s t : State} (holds : s.CountsHold) (next : exec c s = .next t) :
    t.CountsHold := by
  have only := (exec_moves next).only
  cases c with
  | powerOn memory present =>
    exact execPowerOn_countsHold next
  | voiceStart => exact exec_item_countsHold (by simp) holds next
  | voiceRelease => exact exec_item_countsHold (by simp) holds next
  | voiceStop => exact exec_item_countsHold (by simp) holds next
  | stopAll => exact exec_item_countsHold (by simp) holds next
  | tick => exact execTick_countsHold holds next
  | localPeriodTimerExpiry => exact execLocalPeriodTimerExpiry_countsHold holds next
  | passComplete => exact execPassComplete_countsHold holds next
  | readCompletion => exact execReadCompletion_countsHold holds next
  | readTimeout => exact execReadTimeout_countsHold holds next
  | staleHoldExpiry l number =>
    change execStaleHoldExpiry l number s = _ at next
    unfold execStaleHoldExpiry at next
    split at next <;> cases next
    · exact ((s.releaseNumber_sameCounts l number none).trans (State.dispatch_sameCounts _)).countsHold holds
    · exact holds
    · exact holds
  | errorWindowEnd => exact (execErrorWindowEnd_sameCounts next).countsHold holds
  | presenceLost => exact (execPresenceLost_sameCounts next).countsHold holds
  | presenceReturned => exact (execPresenceReturned_sameCounts next).countsHold holds
  | loadSample => exact State.serve_countsHold holds (fun r u hu => State.loadSample_countsHold hu r) next
  | retireSample => exact State.serve_countsHold holds (fun r u hu => State.retireSample_countsHold hu r) next
  | loadArticulation => exact exec_load_countsHold (by simp) holds next
  | loadZones => exact exec_load_countsHold (by simp) holds next
  | loadCurve => exact exec_load_countsHold (by simp) holds next
  | loadMatrix => exact exec_load_countsHold (by simp) holds next
  | reset =>
    refine State.serve_countsHold (f := fun r u => u.betweenPasses r State.finishReset) holds (fun r u hu => ?_) next
    unfold State.betweenPasses
    split
    · exact hu
    · exact State.finishReset_countsHold hu r
  | _ => exact (only.sameCounts (of_decide_eq_true rfl) (of_decide_eq_true rfl) (of_decide_eq_true rfl)).countsHold holds

theorem State.idle_countsHold {s : State} (holds : s.CountsHold) : s.idle.CountsHold := by
  unfold State.idle
  split
  · exact ((s.readOn_changes _ _ 1).sameCounts (by decide) (by decide) (by decide)).countsHold holds
  · unfold State.idleOn
    split
    · exact holds
    split
    · exact (s.setCadence_sameCounts _).countsHold holds
    split
    · exact (s.setCadence_sameCounts _).countsHold holds
    · have timed (u : State) (c : Cadence) (n : Nat) : u.SameCounts ((u.setCadence c).setFreeCount n) :=
        ⟨rfl, rfl, fun _ => rfl⟩
      exact ((timed _ _ _).trans (State.dispatch_sameCounts _)).countsHold (State.renderTurn_countsHold holds _ _)

/-- Settles O12: a voice takes its record and its count together and leaves both together; an entry finishes priming
with a count of 0, and becomes EMPTY only with it. -/
theorem countsKept : Obligations.CountsKept := fun _ _ holds h =>
  step_keeps (P := State.CountsHold) (fun _ _ => id) (fun _ => State.idle_countsHold) (fun _ _ _ => exec_countsHold)
    holds h

end Sys2Proof.Machine
end

section
/-! SUPPORT. The machine's own statements: what a step takes, the power-on values, and that they are sound. -/

namespace Sys2Proof.Machine

/-! ### The turns that are left -/

/-- R122: with rising records the first turn left is that of the lowest record not yet come to. -/
theorem Table.keys_filter_head {α : Type} {t : Table α} (rising : Table.Rising t) {n v : Nat}
    (listed : (Table.get? t v).isSome = true) (due : n ≤ v)
    (lower : ∀ w, n ≤ w → w < v → Table.get? t w = none) :
    ∃ rest, ((Table.keys t).filter fun w => decide (n ≤ w)) = v :: rest := by
  induction t with
  | nil => cases listed
  | cons row t ih =>
    obtain ⟨i, a⟩ := row
    obtain ⟨above, rises⟩ := List.pairwise_cons.mp rising
    simp only [Table.get?_cons] at listed lower
    by_cases same : i = v
    · subst same
      exact ⟨_, List.filter_cons_of_pos (by simpa using due)⟩
    · rw [if_neg same] at listed
      obtain ⟨b, is⟩ := Option.isSome_iff_exists.mp listed
      have before : i < v := above _ (Table.mem_of_get? is)
      have passed : ¬ n ≤ i := fun behind => by simpa using lower i behind before
      obtain ⟨rest, eq⟩ := ih rises listed fun w least below => by
        have none := lower w least below
        rwa [if_neg (by omega)] at none
      exact ⟨rest, (List.filter_cons_of_neg (by simpa using passed)).trans eq⟩

theorem State.turnsLeft_nil {s : State} {p : Pass} (done : ∀ row ∈ s.voices, row.1 < p.next) : s.turnsLeft p = [] := by
  refine List.filter_eq_nil_iff.mpr fun v mem => ?_
  obtain ⟨x, listed⟩ := Table.mem_keys.mp mem
  have := done _ listed
  simpa using this

/-! ### An idle step -/

theorem State.idle_of_noneRead {s : State} (h : s.NoneRead) : s.idle = s.idleOn := by
  have none : s.report.reading? = none := by
    unfold Report.reading?
    rcases h with h | h <;> rw [h]
    cases s.report.busy <;> rfl
  rw [State.idle, none]

theorem State.idleOn_handed {s : State} (h : s.port.handed ≠ []) : s.idleOn = s := by
  rw [State.idleOn, if_pos (by simpa using h)]

/-- With no turn left one frame of the local clock passes. -/
theorem State.idleOn_passTime {s : State} (handed : s.port.handed = [])
    (done : ∀ p ∈ s.pass, ∀ row ∈ s.voices, row.1 < p.next) : s.idleOn = s.passTime 1 := by
  rw [State.idleOn, if_neg (by simp [handed])]
  cases pass : s.pass with
  | none => rfl
  | some p => simp only [State.turnsLeft_nil (done p pass)]

theorem State.idleOn_turn {s : State} (handed : s.port.handed = []) {p : Pass} (pass : s.pass = some p) {v : Nat}
    {rest : List Nat} (left : s.turnsLeft p = v :: rest) : s.idleOn = s.idleTurn p v := by
  rw [State.idleOn, if_neg (by simp [handed]), pass]
  simp only [left]

theorem Cadence.later_one (c : Cadence) {expiry : Nat} (timer : c.timer = some expiry) :
    c.later 1 = if c.clock < expiry then c.clock + 1 else c.clock := by
  simp only [Cadence.later, timer]
  split <;> omega

/-- R122: the turn of a record is over, whether or not a pass is under way. -/
theorem State.passTurn_eq (s : State) (v : Nat) :
    s.passTurn v = { s with pass := s.pass.map fun r => { r with next := v + 1 } } := by
  rcases s with ⟨_, _, _, _, _, _, _, _, pass, _, _, _, _, _⟩
  cases pass <;> rfl

/-- Settles O1: a step by what is at the front of the queue, and an idle step by what is under way. -/
theorem stepTakesFront : Obligations.StepTakesFront := by
  refine ⟨fun c rest s front => ?_, fun s empty unread => ?_⟩
  · rw [step, front]
    rfl
  · have idles : step s = .next s.idleOn := by rw [step, empty, State.idle_of_noneRead unread]
    refine ⟨fun handed => ?_, fun handed => ⟨fun done => ⟨fun timer => ?_, fun expiry timer => ?_⟩, ?_⟩⟩
    · rw [idles, State.idleOn_handed handed]
    · rw [idles, State.idleOn_passTime handed done, State.passTime, Cadence.later, timer]
      rfl
    · rw [idles, State.idleOn_passTime handed done, State.passTime, Cadence.later_one _ timer]
      rfl
    · intro p v pass rising listed due lower
      obtain ⟨rest, left⟩ := Table.keys_filter_head rising listed due lower
      dsimp only
      rw [idles, State.idleOn_turn handed pass left, State.idleTurn, State.renderTurn, State.passTurn_eq]
      rfl

/-- Settles O3: each register by its definition. -/
theorem resetValues : Obligations.ResetValues := by
  refine ⟨fun _ => rfl, fun _ => rfl, fun _ => rfl, fun _ => rfl, fun _ => rfl, fun _ => rfl, rfl, fun _ _ => rfl,
    fun l => ?_, rfl, rfl, rfl, fun _ => rfl, ⟨rfl, rfl, rfl, rfl, rfl⟩, rfl, fun _ => ⟨rfl, rfl⟩, rfl⟩
  cases l <;> rfl

/-! ### The power-on state is sound -/

theorem State.reset_lane (l : LaneId) : State.reset.lane l = Lane.initial true := by
  cases l <;> rfl

theorem State.reset_countsHold : State.reset.CountsHold := by
  refine ⟨List.Pairwise.nil, List.Pairwise.nil, fun l h mem => ?_, fun _ _ is => (by cases is), fun _ _ is => (by cases is)⟩
  rw [State.reset_lane] at mem
  cases mem

theorem State.reset_fetchSound : State.reset.FetchSound := by
  have noSlot (v j : Nat) : State.reset.slot? v j = none := rfl
  have noneQueued : State.reset.partsQueued = [] := rfl
  have noneRead : State.reset.partsRead = [] := rfl
  unfold State.FetchSound
  rw [noneQueued, noneRead]
  refine ⟨List.Pairwise.nil, fun l => ?_, List.nodup_nil, List.nodup_nil, fun v j p => ?_, fun _ _ _ mem => ?_,
    fun v j x _ is => ?_⟩
  · rw [State.reset_lane]
    exact ⟨List.Pairwise.nil, fun absent => by cases absent⟩
  · simp [noSlot]
  · cases mem
  · rw [noSlot] at is
    cases is

theorem State.reset_queuesPlaced : State.reset.QueuesPlaced := by
  refine ⟨fun l n mem => ?_, fun l row mem => ?_⟩ <;> rw [State.reset_lane] at mem <;> cases mem

/-- Settles O4: the power-on state lists nothing, so that each invariant is one of its few registers. -/
theorem resetIsSound : Obligations.ResetIsSound := by
  refine ⟨⟨⟨.nil, nofun⟩, ⟨.nil, nofun⟩⟩, fun k => ⟨rfl, Nat.zero_le _, fun _ => rfl⟩, ?bounded, fun i => Nat.zero_lt_one,
    ⟨.nil, fun v w x y is => (by cases is)⟩, fun p is => (by cases is), fun g is => (by cases is), nofun,
    State.reset_countsHold, State.reset_fetchSound, ?windows, State.reset_queuesPlaced⟩
  case bounded => exact ⟨⟨Nat.zero_le _, Nat.zero_le _, Nat.zero_le _, Nat.zero_le _, Nat.zero_le _⟩, Nat.zero_le _, Nat.zero_le _⟩
  case windows =>
    refine ⟨?_, .nil, .nil, fun v j slot _ is => by cases is⟩
    show 256 ≤ 1024
    omega

end Sys2Proof.Machine
end

section
/-! SUPPORT. Fields of a message: what a big-endian field reads back, and where it lies in a concatenation. -/

namespace Sys2Proof.Machine

@[simp] theorem length_toBE (n v : Nat) : (toBE n v).length = n := by
  induction n generalizing v with
  | zero => rfl
  | succ n ih => simp [toBE, ih]

theorem ofBE_append_byte (a : List Byte) (b : Byte) : ofBE (a ++ [b]) = ofBE a * 256 + b.toNat := by
  simp [ofBE]

/-- A number written in `n` bytes reads back reduced. -/
@[simp] theorem ofBE_toBE (n v : Nat) : ofBE (toBE n v) = v % 256 ^ n := by
  induction n generalizing v with
  | zero => simp [ofBE, toBE, Nat.mod_one]
  | succ n ih =>
    rw [toBE, ofBE_append_byte, ih, BitVec.toNat_ofNat, pow_succ' 256 n, Nat.mod_mul]
    omega

theorem ofBE_lt (b : List Byte) : ofBE b < 256 ^ b.length := by
  induction b using List.reverseRecOn with
  | nil => exact Nat.one_pos
  | append_singleton a b ih =>
    rw [ofBE_append_byte, List.length_append, List.length_singleton, Nat.pow_succ]
    have := b.isLt
    omega

/-- Bytes are the spelling of the number they spell. -/
theorem toBE_ofBE (b : List Byte) : toBE b.length (ofBE b) = b := by
  induction b using List.reverseRecOn with
  | nil => rfl
  | append_singleton a b ih =>
    have below := b.isLt
    have high : (ofBE a * 256 + b.toNat) / 256 = ofBE a := by omega
    have low : BitVec.ofNat 8 (ofBE a * 256 + b.toNat) = b := by
      apply BitVec.eq_of_toNat_eq
      rw [BitVec.toNat_ofNat]
      omega
    rw [List.length_append, List.length_singleton, toBE, ofBE_append_byte, high, ih, low]

theorem toBE_mod (n v : Nat) : toBE n (v % 256 ^ n) = toBE n v := by
  have eq := toBE_ofBE (toBE n v)
  rwa [length_toBE, ofBE_toBE] at eq

/-- A field behind other bytes. -/
theorem field_append_later {a b : List Byte} {i n : Nat} (h : a.length ≤ i) :
    field (a ++ b) i n = field b (i - a.length) n := by
  rw [field, field, slice, slice, List.drop_append, List.drop_eq_nil_of_le h, List.nil_append]

theorem slice_here (a b : List Byte) : slice (a ++ b) 0 a.length = a := by
  rw [slice, List.drop_zero, List.take_left']
  rfl

/-- The field that a message begins with. -/
@[simp] theorem field_toBE (n v : Nat) (b : List Byte) : field (toBE n v ++ b) 0 n = v % 256 ^ n := by
  have here := slice_here (toBE n v) b
  rw [length_toBE] at here
  rw [field, here, ofBE_toBE]

/-- The field that a message is. -/
@[simp] theorem field_toBE_only (n v : Nat) : field (toBE n v) 0 n = v % 256 ^ n := by
  have here := field_toBE n v []
  rwa [List.append_nil] at here

/-- A field of another length lies behind the first one. -/
@[simp] theorem field_toBE_later (n v : Nat) (b : List Byte) (i m : Nat) (h : n ≤ i) :
    field (toBE n v ++ b) i m = field b (i - n) m := by
  rw [field_append_later (by simpa using h), length_toBE]

/-! ### The message header (8.10) -/

/-- The fields of a message's header, for any payload that lays them out. -/
theorem header_fields {version kind number length items : Nat} {rest payload : List Byte}
    (is : payload = toBE 1 version ++ toBE 1 kind ++ toBE 2 number ++ toBE 2 length ++ toBE 2 items ++ rest)
    (v : version < 256) (k : kind < 256) (n : number < 65536) (l : length < 65536) (i : items < 65536) :
    headerVersion payload = version ∧ headerKind payload = kind ∧ headerNumber payload = number ∧
      headerBodyLength payload = length ∧ headerItemCount payload = items ∧
      payload.length = 8 + rest.length ∧ messageBody payload = rest.take length := by
  simp only [List.append_assoc] at is
  have bodyLength : headerBodyLength payload = length := by
    rw [is, headerBodyLength]
    simp
    omega
  refine ⟨?_, ?_, ?_, bodyLength, ?_, ?_, ?_⟩
  · rw [is, headerVersion]
    simp
    omega
  · rw [is, headerKind]
    simp
    omega
  · rw [is, headerNumber]
    simp
    omega
  · rw [is, headerItemCount]
    simp
    omega
  · simp [is]
    omega
  · rw [messageBody, bodyLength, slice]
    congr 1
    have eight : (toBE 1 version ++ toBE 1 kind ++ toBE 2 number ++ toBE 2 length ++ toBE 2 items).length = 8 := by simp
    rw [is, ← eight]
    simp only [← List.append_assoc]
    exact List.drop_left' rfl

end Sys2Proof.Machine
end

section
/-! SUPPORT. Power-on and the frames that come in (8.1 to 8.4). -/

namespace Sys2Proof.Machine

/-! ### POWER_ON -/

theorem powerOnPort_short {memory : Option (List Byte)} (short : ∀ bytes ∈ memory, bytes.length < 12) :
    powerOnPort memory = Port.initial := by
  cases memory with
  | none => rfl
  | some bytes =>
    have few := short bytes rfl
    have not : memoryHolds bytes = false := by
      rw [memoryHolds, decide_eq_false (by omega)]
      rfl
    rw [powerOnPort, not]
    rfl

/-- R148: twelve bytes of the configuration memory, whatever is behind them. -/
theorem powerOnPort_spelled {address etherType check : Nat} (more : List Byte) (a : address < 2 ^ 48)
    (t : etherType < 65536) (c : check < 2 ^ 32) :
    powerOnPort (some (toBE 6 address ++ toBE 2 etherType ++ toBE 4 check ++ more)) =
      if check = (crc32 (toBE 6 address ++ toBE 2 etherType)).toNat ∧ 0x0600 ≤ etherType then
        { Port.initial with station := BitVec.ofNat 48 address, etherType := BitVec.ofNat 16 etherType,
                            memoryStatus := .read }
      else Port.initial := by
  have identity : slice (toBE 6 address ++ (toBE 2 etherType ++ (toBE 4 check ++ more))) 0 8 =
      toBE 6 address ++ toBE 2 etherType := by
    have here := slice_here (toBE 6 address ++ toBE 2 etherType) (toBE 4 check ++ more)
    simpa using here
  have address_ : address % 281474976710656 = address := Nat.mod_eq_of_lt a
  have type_ : etherType % 65536 = etherType := Nat.mod_eq_of_lt t
  have check_ : check % 4294967296 = check := Nat.mod_eq_of_lt c
  have long : 12 ≤ 6 + (2 + (4 + more.length)) := by omega
  simp only [List.append_assoc, powerOnPort, memoryHolds, lowestEtherType, identity]
  simp [address_, type_, check_, long]

/-- Settles O15: the identity by its three checks; everything else is the power-on state. -/
theorem powerOn : Obligations.PowerOn := by
  intro present s
  refine ⟨fun memory short => ?_, fun address etherType check more a t c => ?_⟩
  · show execPowerOn memory present s = _
    rw [execPowerOn, powerOnPort_short short]
    rfl
  · show execPowerOn _ present s = _
    rw [execPowerOn, powerOnPort_spelled more a t c]
    split <;> rfl

/-! ### FRAME_RECEIVED: the filter and the partner check -/

/-- R149: a frame is accepted by five checks. -/
theorem Port.accepts_iff (p : Port) (f : Frame) : p.accepts f = true ↔
    f.checkOk = true ∧ 46 ≤ f.payload.length ∧ f.payload.length ≤ 9000 ∧ f.destination = p.station ∧
      f.etherType = p.etherType := by
  simp only [Port.accepts, Bool.and_eq_true, decide_eq_true_eq, beq_iff_eq, and_assoc]
  rfl

/-- R150: a CONFIGURE, or any frame of the partner's. -/
theorem Port.knows_iff (p : Port) (f : Frame) :
    p.knows f = true ↔ headerKind f.payload = 0x20 ∨ p.partner = some f.source := by
  simp [Port.knows, kindConfigure]

theorem execFrameReceived_taken {f : Frame} {s : State} (accepted : s.port.accepts f = true)
    (known : s.port.knows f = true) : exec (.frameReceived f) s = .next (s.classify f) := by
  show execFrameReceived f s = _
  rw [execFrameReceived, if_pos accepted, if_pos known]

/-- Settles O16: the filter and the partner check, each with its outcome. -/
theorem frameNotTaken : Obligations.FrameNotTaken := by
  refine ⟨fun f s fails => ?_, fun f s checked long short station type kind partner => ?_⟩
  · have dropped : ¬ s.port.accepts f = true := by
      rw [Port.accepts_iff]
      rintro ⟨checked, -, short, station, type⟩
      rcases fails with bad | long | other | other
      · rw [checked] at bad
        cases bad
      · omega
      · exact other station
      · exact other type
    show execFrameReceived f s = _
    rw [execFrameReceived, if_neg dropped]
  · have accepted := (s.port.accepts_iff f).mpr ⟨checked, long, short, station, type⟩
    have unknown : ¬ s.port.knows f = true := by
      rw [Port.knows_iff]
      exact not_or.mpr ⟨kind, partner⟩
    show execFrameReceived f s = _
    rw [execFrameReceived, if_pos accepted, if_neg unknown]
    rfl

/-! ### STREAM frames -/

theorem State.Admits.taken {s : State} {f : Frame} (h : s.Admits f) :
    exec (.frameReceived f) s = .next (s.classify f) := by
  obtain ⟨checked, long, short, station, type, partner⟩ := h
  exact execFrameReceived_taken ((s.port.accepts_iff f).mpr ⟨checked, long, short, station, type⟩)
    ((s.port.knows_iff f).mpr (.inr partner))

/-- Settles O18: a STREAM frame by its items, and each item by the room in its queue. -/
theorem streamTaken : Obligations.StreamTaken := by
  refine ⟨fun f s admitted stream => ?_, fun s => ⟨fun i => ?_, fun n => ?_⟩⟩
  · have taken : exec (.frameReceived f) s = .next (s.acceptStream f.payload) := by
      rw [admitted.taken, State.classify, if_pos (show headerKind f.payload = kindStream from stream)]
    refine ⟨fun malformed => ?_, fun items is => ?_⟩
    · rw [taken, State.acceptStream, malformed]
      rfl
    · rw [taken, State.acceptStream, is]
  · show s.acceptVoiceItem i = _
    rw [State.acceptVoiceItem]
    rfl
  · show s.acceptTick n = _
    rw [State.acceptTick]
    refine if_congr ?_ rfl rfl
    rw [List.isEmpty_iff_length_eq_zero]

/-! ### Management messages -/

/-- R154: a management message, once its header fields and its mark are known. -/
theorem execFrameReceived_request {f : Frame} {s : State} {number kind length : Nat} {rest : List Byte}
    {mark : HeaderMark} (taken : exec (.frameReceived f) s = .next (s.classify f))
    (isKind : headerKind f.payload = kind) (isNumber : headerNumber f.payload = number)
    (isBody : messageBody f.payload = rest.take length) (isMark : headerMark f.payload = mark) (stream : kind ≠ 0x10) :
    exec (.frameReceived f) s =
      if s.port.mgmtQueue.length < 8 then
        .next { s with port := { s.port with
                                 mgmtQueue := s.port.mgmtQueue ++ [⟨f.source, number, kind, mark, rest.take length⟩] } }
      else .next { s with report := s.report.raise (.ingressOverflow .management) } := by
  rw [taken, State.classify, if_neg (by rw [isKind]; exact stream), State.acceptRequest, requestOf, isKind, isNumber,
    isBody, isMark]
  split
  · exact (if_pos ‹_›).symm
  · exact (if_neg ‹_›).symm

/-- R151: the mark of a management message by its header fields. -/
theorem headerMark_of_fields {payload : List Byte} {version kind length items : Nat} {rest : List Byte}
    (isVersion : headerVersion payload = version) (isKind : headerKind payload = kind)
    (isLength : headerBodyLength payload = length) (isItems : headerItemCount payload = items)
    (isSize : payload.length = 8 + rest.length) (isBody : messageBody payload = rest.take length) :
    headerMark payload =
      if kind < 0x20 ∨ 0x2E < kind ∨ version ≠ 1 then .badKind
      else if rest.length < length then .badLength
      else if layoutLength kind items ≠ some length then .badLength
      else if kind = 0x25 ∧ field (rest.take length) 2 2 ≠ items then .badLength
      else .unmarked := by
  simp only [headerMark, isVersion, isKind, isLength, isItems, isSize, isBody, isManagementKind, kindLoadZones]
  refine if_congr ?_ rfl (if_congr ?_ rfl rfl)
  · simp
    omega
  · omega

/-- R151: the layouts of fixed length. -/
theorem layoutLength_fixed {kind fixed : Nat} (items : Nat)
    (h : (kind, fixed) ∈ [(0x20, 25), (0x21, 43), (0x22, 4), (0x23, 4), (0x24, 10), (0x26, 19), (0x27, 34),
      (0x28, 4), (0x2C, 0), (0x2D, 0), (0x2E, 0)]) :
    kind ≠ 0x25 ∧ layoutLength kind items = if items = 0 then some fixed else none := by
  simp only [List.mem_cons, Prod.mk.injEq, List.not_mem_nil, or_false] at h
  rcases h with ⟨rfl, rfl⟩ | ⟨rfl, rfl⟩ | ⟨rfl, rfl⟩ | ⟨rfl, rfl⟩ | ⟨rfl, rfl⟩ | ⟨rfl, rfl⟩ | ⟨rfl, rfl⟩ | ⟨rfl, rfl⟩ |
    ⟨rfl, rfl⟩ | ⟨rfl, rfl⟩ | ⟨rfl, rfl⟩ <;> by_cases none : items = 0 <;>
    simp [layoutLength, kindLoadZones, kindEventMask, kindEventClear, kindEventSet, kindConfigure, kindLoadSample,
      kindRetireSample, kindQuerySample, kindQueryVoice, kindLoadArticulation, kindLoadCurve, kindLoadMatrix, none]

/-- Settles O19: the header fields give the mark, and the mark the request that joins the queue. -/
theorem requestQueued : Obligations.RequestQueued := by
  intro f s version kind number length items rest checked station type payload long short v k n l i stream known
  dsimp only
  obtain ⟨isVersion, isKind, isNumber, isLength, isItems, isSize, isBody⟩ := header_fields payload v k n l i
  have taken := execFrameReceived_taken ((s.port.accepts_iff f).mpr ⟨checked, long, short, station, type⟩)
    ((s.port.knows_iff f).mpr (isKind ▸ known))
  have mark := headerMark_of_fields isVersion isKind isLength isItems isSize isBody
  refine ⟨fun bad => ?_, fun least most one => ?_⟩
  · exact execFrameReceived_request taken isKind isNumber isBody (mark.trans (if_pos bad)) stream
  · rw [if_neg (by omega)] at mark
    refine ⟨fun beyond => ?_, fun fits => ?_⟩
    · exact execFrameReceived_request taken isKind isNumber isBody (mark.trans (if_pos beyond)) stream
    rw [if_neg (by omega)] at mark
    refine ⟨fun fixed listed => ?_, fun is => ?_, fun is => ?_, fun is => ?_⟩ <;>
      refine execFrameReceived_request taken isKind isNumber isBody (mark.trans ?_) stream
    · obtain ⟨other, layout⟩ := layoutLength_fixed items listed
      rw [layout]
      by_cases none : items = 0 <;> by_cases same : length = fixed <;> simp [none, same, other, eq_comm]
    · subst is
      rw [show layoutLength 0x25 items = some (4 + 13 * items) from rfl]
      have flip : length = 4 + 13 * items ↔ 4 + 13 * items = length := eq_comm
      by_cases same : 4 + 13 * items = length <;> by_cases count : field (rest.take length) 2 2 = items <;>
        simp [flip, same, count]
    · subst is
      rw [show layoutLength 0x29 items = some (2 * items) from rfl]
      by_cases same : length = 2 * items <;> simp [same, eq_comm]
    · have layout : layoutLength kind items = some items := by rcases is with rfl | rfl <;> rfl
      have other : kind ≠ 0x25 := by omega
      rw [layout]
      by_cases same : length = items <;> simp [same, other, eq_comm]

end Sys2Proof.Machine
end

section
/-! SUPPORT. The STREAM items: each layout spells one item and is read back as it (8.10, R152). -/

namespace Sys2Proof.Machine

/-! ### Bytes as fields -/

theorem slice_add (c : List Byte) (i m n : Nat) : slice c i (m + n) = slice c i m ++ slice c (i + m) n := by
  rw [slice, slice, slice, List.take_add, List.drop_drop]

theorem field_lt (c : List Byte) (i n : Nat) : field c i n < 256 ^ n :=
  (ofBE_lt _).trans_le (Nat.pow_le_pow_right (by omega) (List.length_take_le _ _))

theorem toBE_field {c : List Byte} {i n : Nat} (inside : i + n ≤ c.length) : toBE n (field c i n) = slice c i n := by
  have size : (slice c i n).length = n := by
    rw [slice, List.length_take, List.length_drop]
    omega
  have back := toBE_ofBE (slice c i n)
  rwa [size] at back

/-- The bytes from one on, as fields of these widths spell them. -/
def fieldsFrom (c : List Byte) (i : Nat) : List Nat → List Byte
  | [] => []
  | w :: widths => toBE w (field c i w) ++ fieldsFrom c (i + w) widths

theorem slice_eq_fieldsFrom {c : List Byte} {i : Nat} {widths : List Nat} (inside : i + widths.sum ≤ c.length) :
    slice c i widths.sum = fieldsFrom c i widths := by
  induction widths generalizing i with
  | nil => rfl
  | cons w widths ih =>
    rw [List.sum_cons] at inside ⊢
    rw [slice_add, ih (by omega), fieldsFrom, toBE_field (by omega)]

/-! ### One item -/

/-- The type of an item (8.10). -/
def itemType : StreamItem → Nat
  | .voice (.start _ _ _ _ _ _ _) => 1
  | .voice (.release _ _ _) => 2
  | .voice (.stop _) => 3
  | .voice .stopAll => 4
  | .tick _ => 5

/-- R152: an item's bytes begin with its type and its layout's length, which is theirs. -/
theorem itemBytes_head (i : StreamItem) : ∃ n fields, itemLength (itemType i) = some n ∧ 2 ≤ n ∧ n < 256 ∧
    itemBytes i = BitVec.ofNat 8 (itemType i) :: BitVec.ofNat 8 n :: fields ∧ (itemBytes i).length = n := by
  rcases i with ((_ | _ | _ | _) | _)
  · exact ⟨20, _, rfl, by decide, by decide, rfl, by simp [itemBytes, word32]⟩
  · exact ⟨12, _, rfl, by decide, by decide, rfl, by simp [itemBytes, word32]⟩
  · exact ⟨6, _, rfl, by decide, by decide, rfl, by simp [itemBytes, word32]⟩
  · exact ⟨2, _, rfl, by decide, by decide, rfl, rfl⟩
  · exact ⟨6, _, rfl, by decide, by decide, rfl, by simp [itemBytes, word32]⟩

theorem itemType_lt (i : StreamItem) : itemType i < 256 := by
  rcases i with ((_ | _ | _ | _) | _) <;> simp [itemType]

theorem itemBytes_ne_nil (i : StreamItem) : itemBytes i ≠ [] := by
  obtain ⟨n, fields, -, -, -, is, -⟩ := itemBytes_head i
  rw [is]
  exact List.cons_ne_nil _ _

/-- R152: an item is read back from the bytes that its layout spells. -/
theorem readItem_itemBytes {i : StreamItem} (fits : itemFits i) (more : List Byte) :
    readItem (itemType i) (itemBytes i ++ more) = i := by
  have word (w : BitVec 32) : w.toNat % 4294967296 = w.toNat := Nat.mod_eq_of_lt w.isLt
  rcases i with ((⟨tag, articulation, note, velocity, period, offset, source⟩ | ⟨tag, period, offset⟩ | tag | _) | index)
  · obtain ⟨a, n, v, o, s⟩ := fits
    have short (x : Nat) (h : x < 65536) : x % 65536 = x := Nat.mod_eq_of_lt h
    simp [itemType, readItem, itemBytes, word32, word, short, a, o, Nat.mod_eq_of_lt n, Nat.mod_eq_of_lt v,
      Nat.mod_eq_of_lt s]
  · have o : offset < 65536 := fits
    simp [itemType, readItem, itemBytes, word32, word, Nat.mod_eq_of_lt o]
  · simp [itemType, readItem, itemBytes, word32, word]
  · rfl
  · simp [itemType, readItem, itemBytes, word32, word]

/-- R152: the bytes of a listed type and its layout's length are those of the item that is read. -/
theorem itemBytes_readItem {c : List Byte} {n : Nat} (type : itemLength (field c 0 1) = some n)
    (length : field c 1 1 = n) (inside : n ≤ c.length) :
    itemFits (readItem (field c 0 1) c) ∧ itemBytes (readItem (field c 0 1) c) = c.take n := by
  have word (i : Nat) : (BitVec.ofNat 32 (field c i 4)).toNat = field c i 4 := by
    rw [BitVec.toNat_ofNat]
    exact Nat.mod_eq_of_lt (field_lt c i 4)
  have whole (widths : List Nat) (h : widths.sum ≤ c.length) : c.take widths.sum = fieldsFrom c 0 widths := by
    rw [← slice_eq_fieldsFrom (by omega), slice, List.drop_zero]
  generalize kind : field c 0 1 = t at type
  unfold itemLength at type
  split at type <;> cases type
  · refine ⟨⟨field_lt c 6 2, field_lt c 8 1, field_lt c 9 1, field_lt c 14 2, field_lt c 16 4⟩, ?_⟩
    rw [show 20 = [1, 1, 4, 2, 1, 1, 4, 2, 4].sum from rfl, whole [1, 1, 4, 2, 1, 1, 4, 2, 4] inside]
    simp [readItem, itemBytes, word32, word, fieldsFrom, kind, length]
  · refine ⟨field_lt c 10 2, ?_⟩
    rw [show 12 = [1, 1, 4, 4, 2].sum from rfl, whole [1, 1, 4, 4, 2] inside]
    simp [readItem, itemBytes, word32, word, fieldsFrom, kind, length]
  · refine ⟨trivial, ?_⟩
    rw [show 6 = [1, 1, 4].sum from rfl, whole [1, 1, 4] inside]
    simp [readItem, itemBytes, word32, word, fieldsFrom, kind, length]
  · refine ⟨trivial, ?_⟩
    rw [show 2 = [1, 1].sum from rfl, whole [1, 1] inside]
    simp [readItem, itemBytes, fieldsFrom, kind, length]
  · refine ⟨trivial, ?_⟩
    rw [show 6 = [1, 1, 4].sum from rfl, whole [1, 1, 4] inside]
    simp [readItem, itemBytes, word32, word, fieldsFrom, kind, length]

/-- No item's bytes begin another's. -/
theorem itemBytes_append_inj {i j : StreamItem} {a b : List Byte} (h : itemBytes i ++ a = itemBytes j ++ b) : a = b := by
  obtain ⟨n, fields, type, -, -, is, size⟩ := itemBytes_head i
  obtain ⟨m, others, type', -, -, is', size'⟩ := itemBytes_head j
  have heads : BitVec.ofNat 8 (itemType i) = BitVec.ofNat 8 (itemType j) := by
    rw [is, is'] at h
    exact (List.cons.inj h).1
  have same : itemType i = itemType j := by
    have := congrArg BitVec.toNat heads
    rwa [BitVec.toNat_ofNat, BitVec.toNat_ofNat, Nat.mod_eq_of_lt (itemType_lt i), Nat.mod_eq_of_lt (itemType_lt j)]
      at this
  have lengths : n = m := Option.some.inj (type.symm.trans (same ▸ type'))
  exact (List.append_inj h (size.trans (lengths.trans size'.symm))).2

/-! ### A body -/

theorem field_first (b : Byte) (rest : List Byte) : field (b :: rest) 0 1 = b.toNat := by
  simp [field, slice, ofBE]

theorem field_second (a b : Byte) (rest : List Byte) : field (a :: b :: rest) 1 1 = b.toNat := by
  simp [field, slice, ofBE]

/-- R152: one item of a body, and what is behind it. -/
theorem readItems_append {i : StreamItem} (fits : itemFits i) (n : Nat) (more : List Byte) :
    readItems (n + 1) (itemBytes i ++ more) = (readItems n more).map fun items => i :: items := by
  obtain ⟨len, fields, type, -, small, is, size⟩ := itemBytes_head i
  have readBack := readItem_itemBytes fits more
  have dropped : (itemBytes i ++ more).drop len = more := List.drop_left' size
  have inside : len ≤ (itemBytes i ++ more).length := by
    rw [List.length_append]
    omega
  rw [is, List.cons_append, List.cons_append] at readBack dropped inside ⊢
  have head : (BitVec.ofNat 8 (itemType i)).toNat = itemType i := by
    rw [BitVec.toNat_ofNat]
    exact Nat.mod_eq_of_lt (itemType_lt i)
  have second : (BitVec.ofNat 8 len).toNat = len := by
    rw [BitVec.toNat_ofNat]
    exact Nat.mod_eq_of_lt small
  simp only [readItems, head, type, field_second, second, dropped, readBack]
  rw [if_pos ⟨trivial, inside⟩]

/-- R152: a body is read as the items that spell it, and as none others. -/
theorem readItems_iff {n : Nat} {body : List Byte} (enough : body.length ≤ n) (items : List StreamItem) :
    readItems n body = some items ↔ (∀ i ∈ items, itemFits i) ∧ body = items.flatMap itemBytes := by
  constructor
  · intro is
    induction n generalizing body items with
    | zero =>
      obtain rfl := List.eq_nil_of_length_eq_zero (Nat.le_zero.mp enough)
      cases is
      exact ⟨nofun, rfl⟩
    | succ n ih =>
      cases body with
      | nil =>
        cases is
        exact ⟨nofun, rfl⟩
      | cons b rest =>
        rw [readItems] at is
        split at is
        · cases is
        case h_2 len type =>
          split at is
          case isTrue good =>
            obtain ⟨length, inside⟩ := good
            rw [← field_first b rest] at type is
            obtain ⟨fits, spelled⟩ := itemBytes_readItem type length inside
            obtain ⟨more, isMore, rfl⟩ := Option.map_eq_some_iff.mp is
            have positive : 0 < len := by
              unfold itemLength at type
              split at type <;> cases type <;> decide
            obtain ⟨moreFit, eq⟩ := ih (by simp at enough ⊢; omega) _ isMore
            refine ⟨List.forall_mem_cons.mpr ⟨fits, moreFit⟩, ?_⟩
            rw [List.flatMap_cons, spelled, ← eq, List.take_append_drop]
          case isFalse => cases is
  · rintro ⟨fits, rfl⟩
    induction items generalizing n with
    | nil => cases n <;> rfl
    | cons i items ih =>
      obtain ⟨fit, fits⟩ := List.forall_mem_cons.mp fits
      rw [List.flatMap_cons] at enough ⊢
      have positive := List.length_pos_of_ne_nil (itemBytes_ne_nil i)
      rw [List.length_append] at enough
      cases n with
      | zero => omega
      | succ n => rw [readItems_append fit, ih fits (by omega), Option.map_some]

/-- Items spelled one behind another are told apart. -/
theorem flatMap_itemBytes_split {items others : List StreamItem} {tail : List Byte}
    (h : others.flatMap itemBytes = items.flatMap itemBytes ++ tail) :
    ∃ more : List StreamItem, others.length = items.length + more.length ∧ more.flatMap itemBytes = tail := by
  induction items generalizing others with
  | nil => exact ⟨others, by simp, h⟩
  | cons i items ih =>
    cases others with
    | nil =>
      rw [List.flatMap_nil, List.flatMap_cons, List.append_assoc] at h
      exact absurd (List.append_eq_nil_iff.mp h.symm).1 (itemBytes_ne_nil i)
    | cons o others =>
      rw [List.flatMap_cons, List.flatMap_cons, List.append_assoc] at h
      obtain ⟨more, count, eq⟩ := ih (itemBytes_append_inj h)
      exact ⟨more, by simp [count]; omega, eq⟩

/-- R151, R152: a STREAM message is read as the items of its body. -/
theorem streamItems_iff (payload : List Byte) (items : List StreamItem) :
    streamItems payload = some items ↔ headerVersion payload = 1 ∧ 8 + headerBodyLength payload ≤ payload.length ∧
      items.length = headerItemCount payload ∧ (∀ i ∈ items, itemFits i) ∧
      messageBody payload = items.flatMap itemBytes := by
  have read (inside : 8 + headerBodyLength payload ≤ payload.length) :=
    readItems_iff (n := headerBodyLength payload) (body := messageBody payload) (List.length_take_le _ _)
  unfold streamItems
  constructor
  · intro is
    split at is
    case isTrue good =>
      obtain ⟨version, inside⟩ := good
      split at is
      · cases is
      case h_2 isRead =>
        split at is <;> cases is
        case isTrue count =>
          obtain ⟨fits, spelled⟩ := (read inside _).mp isRead
          exact ⟨version, inside, count, fits, spelled⟩
    case isFalse => cases is
  · rintro ⟨version, inside, count, fits, spelled⟩
    rw [if_pos ⟨version, inside⟩, (read inside _).mpr ⟨fits, spelled⟩]
    exact if_pos count

/-- R152: what can stand behind well-formed items in a body that is read: another item, or nothing. -/
theorem streamItems_behind {payload : List Byte} {items : List StreamItem} {type : Byte} {more : List Byte}
    (body : messageBody payload = items.flatMap itemBytes ++ type :: more) {all : List StreamItem}
    (is : streamItems payload = some all) :
    ∃ n, itemLength type.toNat = some n ∧ more.head?.map BitVec.toNat = some n ∧ n ≤ more.length + 1 := by
  obtain ⟨-, -, -, -, spelled⟩ := (streamItems_iff payload all).mp is
  obtain ⟨rest, -, behind⟩ := flatMap_itemBytes_split (spelled.symm.trans body)
  cases rest with
  | nil => cases behind
  | cons i rest =>
    obtain ⟨n, fields, isType, -, small, head, size⟩ := itemBytes_head i
    have sizes := congrArg List.length behind
    rw [List.flatMap_cons, List.length_append, size, List.length_cons] at sizes
    rw [List.flatMap_cons, head, List.cons_append, List.cons_append] at behind
    obtain ⟨rfl, rfl⟩ := List.cons.inj behind
    refine ⟨n, ?_, ?_, by omega⟩
    · rw [BitVec.toNat_ofNat, Nat.mod_eq_of_lt (itemType_lt i), isType]
    · rw [List.head?_cons, Option.map_some, BitVec.toNat_ofNat, Nat.mod_eq_of_lt small]

/-- R152: the five layouts. -/
theorem itemLength_eq_some {type n : Nat} :
    itemLength type = some n ↔ (type, n) ∈ [(1, 20), (2, 12), (3, 6), (4, 2), (5, 6)] := by
  unfold itemLength
  split <;> simp_all [eq_comm]

/-- Settles O17: the reader's characterisation, and for each malformed body what it would have to be read as. -/
theorem streamCodec : Obligations.StreamCodec := by
  refine ⟨fun items number padding fits short => ?_, fun payload => ⟨streamItems_iff payload, fun bad => ?_,
    fun items => ⟨fun body count => ?_, fun type more body => ⟨fun unlisted => ?_, fun n listed bad => ?_⟩⟩⟩⟩
  · have two : 2 * items.length ≤ (items.flatMap itemBytes).length := by
      rw [List.length_flatMap]
      have each := List.card_nsmul_le_sum (items.map fun i => (itemBytes i).length) 2 fun n mem => by
        obtain ⟨i, -, rfl⟩ := List.mem_map.mp mem
        obtain ⟨n, -, -, least, -, -, size⟩ := itemBytes_head i
        omega
      simpa [mul_comm] using each
    have spelled : message 0x10 number items.length (items.flatMap itemBytes) ++ padding =
        toBE 1 1 ++ toBE 1 0x10 ++ toBE 2 (number % 65536) ++ toBE 2 (items.flatMap itemBytes).length ++
          toBE 2 items.length ++ (items.flatMap itemBytes ++ padding) := by
      rw [show toBE 2 (number % 65536) = toBE 2 number from toBE_mod 2 number, message]
      simp only [List.append_assoc]
    obtain ⟨version, -, -, bodyLength, count, size, body⟩ := header_fields spelled (by decide) (by decide)
      (Nat.mod_lt _ (by decide)) short (by omega)
    refine (streamItems_iff _ _).mpr ⟨version, ?_, count.symm, fits, ?_⟩
    · rw [size, bodyLength, List.length_append]
      omega
    · rw [body, List.take_left' rfl]
  · refine Option.eq_none_iff_forall_ne_some.mpr fun all is => ?_
    obtain ⟨version, inside, -⟩ := (streamItems_iff payload all).mp is
    rcases bad with other | long
    · exact other version
    · exact absurd inside (Nat.not_le.mpr long)
  · refine Option.eq_none_iff_forall_ne_some.mpr fun all is => ?_
    obtain ⟨-, -, listed, -, spelled⟩ := (streamItems_iff payload all).mp is
    obtain ⟨more, sizes, none⟩ := flatMap_itemBytes_split (spelled.symm.trans (body.trans (List.append_nil _).symm))
    cases more with
    | nil => exact count (sizes.symm.trans listed)
    | cons i more => exact itemBytes_ne_nil i (List.append_eq_nil_iff.mp none).1
  · refine Option.eq_none_iff_forall_ne_some.mpr fun all is => ?_
    obtain ⟨n, length, -, -⟩ := streamItems_behind body is
    exact unlisted n (itemLength_eq_some.mp length)
  · refine Option.eq_none_iff_forall_ne_some.mpr fun all is => ?_
    obtain ⟨m, length, second, inside⟩ := streamItems_behind body is
    obtain rfl : m = n := Option.some.inj (length.symm.trans (itemLength_eq_some.mpr listed))
    rcases bad with other | broken
    · exact other second
    · omega

end Sys2Proof.Machine
end

section
/-! SUPPORT. TRANSMIT_FRAME: the payload of each frame, spelled field by field (8.10). -/

namespace Sys2Proof.Machine

/-- Fields one behind another. -/
theorem spelled_cons (f : Nat × Nat) (fields : List (Nat × Nat)) : spelled (f :: fields) = toBE f.1 f.2 ++ spelled fields :=
  rfl

theorem spelled_nil : spelled [] = [] := rfl

/-- Two's complement of whole bytes is that of the bit vector. -/
theorem toBESigned_eq (n : Nat) (v : Int) : toBESigned n v = toBE n (BitVec.ofInt (8 * n) v).toNat := by
  rw [toBESigned, BitVec.toNat_ofInt, pow_mul]
  rfl

theorem laneField_eq (l : LaneId) : laneField l = (1, laneNumber l) := by cases l <;> rfl

theorem laneStateField_eq (x : LaneState) : laneStateField x = (1, laneStateCode x) := by cases x <;> rfl

theorem cadenceField_eq (x : CadenceState) : cadenceField x = (1, cadenceCode x) := by cases x <;> rfl

theorem reasonField_eq (x : EndReason) : reasonField x = (1, endReasonCode x) := by cases x <;> rfl

theorem statusField_eq (x : ReplyStatus) : statusField x = (1, statusCode x) := by cases x <;> rfl

theorem yesField_eq (b : Bool) : yesField b = (1, boolCode b) := rfl

theorem eventCode_eq (k : EventKind) : eventCode k = k.code := by cases k <;> rfl

/-- The fields of every capture, in its order. -/
theorem spelled_captureSpelled (c : Capture) : spelled (captureSpelled c) = captureFields c := by
  cases c with
  | readError lane address cause =>
    cases cause <;> simp [captureSpelled, captureFields, spelled_cons, spelled_nil, laneField_eq, causeCode]
  | unknownTag tag item =>
    cases item <;> simp [captureSpelled, captureFields, spelled_cons, spelled_nil, tagItemCode, word32]
  | ingressOverflow queue =>
    cases queue <;> simp [captureSpelled, captureFields, spelled_cons, spelled_nil, ingressCode]
  | primeDone handle result =>
    cases result <;> simp [captureSpelled, captureFields, spelled_cons, spelled_nil, primeCode]
  | _ =>
    simp [captureSpelled, captureFields, spelled_cons, spelled_nil, laneField_eq, laneStateField_eq, cadenceField_eq,
      reasonField_eq, yesField_eq, word32]

/-- 8.10: a capture's fields take at most 12 bytes. -/
theorem captureFields_length (c : Capture) : (captureFields c).length ≤ 12 := by
  cases c <;> simp [captureFields, word32]

/-- 8.10: a capture's fields, then 0 up to 12 bytes. -/
theorem captureBytes_eq (c : Option Capture) :
    captureBytes c = spelled ((c.map captureSpelled).getD []) ++
      List.replicate (12 - (spelled ((c.map captureSpelled).getD [])).length) 0 := by
  cases c with
  | none => rfl
  | some c =>
    rw [Option.map_some, Option.getD_some, spelled_captureSpelled, captureBytes, List.take_append,
      List.take_of_length_le (captureFields_length c), List.take_replicate, min_eq_left (by omega)]

theorem noticeEntryBytes_eq (n : NoticeEntry) : noticeEntryBytes n = noticeSpelled n := by
  rw [noticeEntryBytes, captureBytes_eq, noticeSpelled]
  simp [spelled_cons, spelled_nil, eventCode_eq, yesField_eq]

theorem endRecordBytes_eq (e : EndRecord) : endRecordBytes e = endRecordSpelled e := by
  simp [endRecordBytes, endRecordSpelled, spelled_cons, spelled_nil, reasonField_eq, word32]

/-- 8.10: the flags word by its bits 0 to 7. -/
theorem flagsWord_eq (f : BlockFlags) :
    flagsWord f = (if f.first then 2 ^ 0 else 0) + (if f.last then 2 ^ 1 else 0) + (if f.late then 2 ^ 2 else 0) +
      (if f.released then 2 ^ 3 else 0) + (if f.dropout then 2 ^ 4 else 0) + (if f.clipped then 2 ^ 5 else 0) +
      (if f.quietEnter then 2 ^ 6 else 0) + (if f.resume then 2 ^ 7 else 0) := by
  simp only [flagsWord, boolCode, mul_ite, mul_one, mul_zero]
  rfl

theorem blockBytes_eq (b : Block) : blockBytes b = blockSpelled b := by
  simp only [blockBytes, blockSpelled, flagsWord_eq, toBESigned_eq, spelled_cons, spelled_nil, bits32, word32,
    List.append_nil, List.append_assoc]

theorem message_eq (kind number items : Nat) (body : List Byte) :
    message kind number items body = messageSpelled kind number items body := by
  simp [message, messageSpelled, spelled_cons, spelled_nil]

theorem controlPayload_eq (f : ControlFrame) : controlPayload f = controlSpelled f := by
  cases f with
  | reply source number kind a =>
    simp [controlPayload, controlSpelled, message_eq, answerBytes, spelled_cons, spelled_nil, statusField_eq]
  | notice entries => simp only [controlPayload, controlSpelled, message_eq, funext noticeEntryBytes_eq]
  | voiceEnd records => simp only [controlPayload, controlSpelled, message_eq, funext endRecordBytes_eq]

theorem dataPayload_eq (f : DataFrame) : dataPayload f = dataSpelled f := by
  simp [dataPayload, dataSpelled, message_eq, funext blockBytes_eq, spelled_cons, spelled_nil, word32]

/-- Settles O20: the frame that is sent by the queues, and its payload by its layout. -/
theorem transmit : Obligations.Transmit := by
  intro s
  refine ⟨fun down => ?_, fun up => ⟨fun f rest queue => ?_, fun empty => ⟨fun f rest queue closed => ?_, fun open_ => ?_⟩⟩⟩
  · show execTransmitFrame s = _
    rw [execTransmitFrame, if_neg (by simp [down])]
  · show execTransmitFrame s = _
    rw [execTransmitFrame, if_pos up, queue, ← controlPayload_eq]
    cases f <;> rfl
  · show execTransmitFrame s = _
    rw [execTransmitFrame, if_pos up, empty, ← dataPayload_eq]
    dsimp only
    rw [State.sendData, queue]
    exact congrArg Host.Outcome.next (if_pos closed)
  · show execTransmitFrame s = _
    rw [execTransmitFrame, if_pos up, empty]
    dsimp only
    rw [State.sendData]
    cases queue : s.port.dataQueue with
    | nil => rfl
    | cons f rest =>
      have still := open_ f (by rw [queue]; rfl)
      exact congrArg Host.Outcome.next (if_neg (by simp [still]))

end Sys2Proof.Machine
end

section
/-! SUPPORT. Occurrences, the end list and the places of the control queue (chapter 10, R155, R158, R160, R180, R181). -/

namespace Sys2Proof.Machine

/-- R155: a place is free while fewer than 16 are filled or reserved. -/
theorem Report.freePlaces_pos_iff (r : Report) :
    0 < r.freePlaces ↔ r.control.length + (if r.busy = none then 0 else 1) < 16 := by
  rw [Report.freePlaces_pos, controlPlaces]
  cases r.busy <;> rfl

/-- R180: a NOTICE that is wanted. -/
theorem Report.wantNotice_eq (r : Report) : r.wantNotice =
    if r.noticeHeld then r
    else if r.control.length + (if r.busy = none then 0 else 1) < 16 then
      { r with control := r.control ++ [.notice r.noticeEntries] }
    else { r with noticeHeld := true } := by
  rw [Report.wantNotice]
  simp only [r.freePlaces_pos_iff]
  rfl

/-- Settles O23: the record of an occurrence, and the NOTICE that it wants when the event enters the set. -/
theorem occurrence : Obligations.Occurrence := by
  intro r c
  have occurs : (r.event c.kind).occur (some c) =
      { raw := true, masked := (r.event c.kind).masked, pending := !(r.event c.kind).masked,
        count := min ((r.event c.kind).count + 1) 65535,
        capture := if (r.event c.kind).raw then (r.event c.kind).capture else some c } := by
    simp [EventRecord.occur, EventRecord.marked, saturate16]
  dsimp only
  rw [← occurs]
  refine ⟨fun k => ⟨?_, fun other => ?_⟩, fun quiet => ?_, fun unset unmasked => ?_⟩
  · rw [Report.raise_event, Report.event_putEvent]
  · rw [Report.event_putEvent, if_neg other]
  · refine Report.raise_quiet r c ?_
    rcases quiet with set | masked
    · rw [EventRecord.entersOnOccur, set]
      rfl
    · rw [EventRecord.entersOnOccur, masked, Bool.not_true, Bool.and_false]
  · rw [Report.raise, Report.raiseKind, EventRecord.entersOnOccur, unset, unmasked]
    rw [if_pos (by rfl), Report.wantNotice_eq, Report.putEvent_noticeHeld, Report.putEvent_control,
      Report.putEvent_busy]

/-! ### The end list -/

/-- R155, R158: a place is free beside a held NOTICE's. -/
theorem Report.endPlaces_eq (r : Report) : r.endPlaces =
    16 - (r.control.length + (if r.busy = none then 0 else 1) + (if r.noticeHeld = true then 1 else 0)) := by
  rw [Report.endPlaces, Report.freePlaces, controlPlaces]
  cases r.busy <;> simp <;> omega

/-- Each frame sent takes one place. -/
theorem Report.flushOne_endPlaces (r : Report) : r.flushOne.endPlaces = r.endPlaces - 1 := by
  simp only [Report.endPlaces_eq, Report.flushOne, List.length_append, List.length_singleton]
  omega

/-- R158: the frames that a pass completion sends: whole ones from the head of the list, the rest in the last. -/
theorem Report.flushAll_frames (n : Nat) (r : Report) : ∃ frames : List (List EndRecord),
    r.flushAll n = { r with control := r.control ++ frames.map ControlFrame.voiceEnd,
                            endList := r.endList.drop (64 * frames.length) } ∧
    frames.flatten = r.endList.take (64 * frames.length) ∧ (∀ f ∈ frames.dropLast, f.length = 64) ∧
    (∀ f ∈ frames, f ≠ [] ∧ f.length ≤ 64) ∧
    frames.length = min (min n r.endPlaces) ((r.endList.length + 63) / 64) := by
  induction n generalizing r with
  | zero => exact ⟨[], by simp [Report.flushAll], by simp, by simp, by simp, by simp⟩
  | succ n ih =>
    rw [Report.flushAll]
    split
    case isTrue done =>
      have none : min (min (n + 1) r.endPlaces) ((r.endList.length + 63) / 64) = 0 := by
        rw [Bool.or_eq_true, List.isEmpty_iff_length_eq_zero, beq_iff_eq] at done
        omega
      exact ⟨[], by simp, by simp, by simp, by simp, none.symm⟩
    case isFalse more =>
      rw [Bool.or_eq_true, List.isEmpty_iff_length_eq_zero, beq_iff_eq, not_or] at more
      obtain ⟨listed, places⟩ := more
      obtain ⟨frames, sent, flat, whole, size, count⟩ := ih r.flushOne
      have rest : r.flushOne.endList = r.endList.drop 64 := rfl
      have grown : r.flushOne.control = r.control ++ [.voiceEnd (r.endList.take 64)] := rfl
      rw [Report.flushOne_endPlaces, rest, List.length_drop] at count
      rw [rest] at flat sent
      have behind : 64 * (r.endList.take 64 :: frames).length = 64 + 64 * frames.length := by
        rw [List.length_cons]
        omega
      refine ⟨r.endList.take 64 :: frames, ?_, ?_, fun f mem => ?_, fun f mem => ?_, ?_⟩
      · rw [sent, behind, List.drop_drop, grown, List.map_cons, List.append_assoc]
        rfl
      · rw [List.flatten_cons, flat, behind, List.take_add]
      · cases frames with
        | nil => cases mem
        | cons g frames =>
          rw [List.dropLast_cons_cons] at mem
          rcases List.mem_cons.mp mem with rfl | later
          · rw [List.length_cons] at count
            rw [List.length_take]
            omega
          · exact whole f later
      · rcases List.mem_cons.mp mem with rfl | later
        · rw [Ne, ← List.length_eq_zero_iff, List.length_take]
          omega
        · exact size f later
      · rw [List.length_cons, count]
        omega

/-- Settles O21: the list's bounds decide each append, and the places each frame. -/
theorem freedPlace : Obligations.FreedPlace := by
  refine ⟨fun r => ⟨fun e => ⟨fun full => ?_, fun last room => ?_, fun below keeps => ?_⟩, ?_⟩, fun s =>
    ⟨fun held room => ?_, fun none => ?_, fun long room => ?_, fun none => ?_⟩⟩
  · exact if_pos full
  · rw [Report.appendEnd, if_neg (by rw [last]; decide)]
    have places : 0 < Report.endPlaces { r with endList := r.endList ++ [e] } := by
      rw [Report.endPlaces_eq]
      exact Nat.sub_pos_of_lt room
    have size : (r.endList ++ [e]).length = 64 := by simp [last]
    dsimp only
    rw [if_pos ⟨size, places⟩, Report.flushOne]
    simp only [endFrameRecords, List.take_of_length_le size.le, List.drop_of_length_le size.le]
  · refine (if_neg (Nat.not_le.mpr below)).trans (if_neg ?_)
    rintro ⟨size, places⟩
    rw [Report.endPlaces_eq] at places
    rw [List.length_append, List.length_singleton, endFrameRecords] at size
    rcases keeps with other | none
    · omega
    · exact absurd (Nat.lt_of_sub_pos places) (Nat.not_lt.mpr none)
  · obtain ⟨frames, sent, flat, whole, size, count⟩ := r.flushAll_frames 16
    refine ⟨frames, sent, flat, whole, size, count.trans ?_⟩
    rw [Report.endPlaces_eq]
    omega
  · show execNoticeHeldQueued s = _
    rw [execNoticeHeldQueued, if_pos (by simp [held, s.report.freePlaces_pos_iff, room]), Report.placeHeld]
    cases s.report.noticeEntries with
    | nil => simp [State.setReport]
    | cons n more => rfl
  · show execNoticeHeldQueued s = _
    rw [execNoticeHeldQueued, if_neg]
    rw [Bool.and_eq_true, decide_eq_true_eq, Report.freePlaces_pos_iff]
    rintro ⟨held, room⟩
    rcases none with unheld | full
    · rw [unheld] at held
      cases held
    · exact Nat.not_lt.mpr full room
  · show execEndListFlushOnRoom s = _
    have places : 0 < s.report.endPlaces := by
      rw [Report.endPlaces_eq]
      exact Nat.sub_pos_of_lt room
    exact if_pos (Bool.and_eq_true_iff.mpr ⟨decide_eq_true long, decide_eq_true places⟩)
  · show execEndListFlushOnRoom s = _
    rw [execEndListFlushOnRoom, if_neg]
    rw [Bool.and_eq_true, decide_eq_true_eq, decide_eq_true_eq, Report.endPlaces_eq]
    rintro ⟨long, places⟩
    rcases none with short | full
    · exact Nat.not_le.mpr short long
    · exact absurd (Nat.lt_of_sub_pos places) (Nat.not_lt.mpr full)

/-! ### LINK_DOWN -/

theorem Report.noticeEntries_congr {q r : Report} (h : q.events = r.events) : q.noticeEntries = r.noticeEntries := by
  unfold Report.noticeEntries
  simp only [Report.event_congr h]

@[simp] theorem Report.relist_endList (r : Report) (wants : Bool) : (r.relist wants).endList = r.endList := by
  unfold Report.relist
  split
  · rfl
  · split
    · rw [Report.wantNotice_endList]
    · rfl

@[simp] theorem Report.relist_noticeEntries (r : Report) (wants : Bool) :
    (r.relist wants).noticeEntries = r.noticeEntries :=
  Report.noticeEntries_congr (r.relist_events wants)

theorem Report.relist_empty {r : Report} {wants : Bool} (empty : r.noticeEntries = []) :
    r.relist wants = { r with noticeHeld := r.noticeHeld && r.freePlaces == 0 } := by
  rw [Report.relist, empty]
  rfl

/-- R160: the reports with LINK_STATE recorded and the NOTICE and VOICE_END frames discarded. -/
def Report.linkRecorded (r : Report) : Report :=
  (r.putEvent .linkState ((r.event .linkState).occur (some (.linkState false)))).flushLink

theorem Report.linkDown_eq (r : Report) : r.linkDown = r.linkRecorded.relist r.linkWants := rfl

/-- R181: the NOTICE that is wanted once the places have been freed. -/
theorem Report.relist_wanted {r : Report} (some : r.noticeEntries ≠ []) :
    r.relist true =
      if r.control.length + (if r.busy = none then 0 else 1) < 16 then
        { r with control := r.control ++ [.notice r.noticeEntries], noticeHeld := false }
      else { r with noticeHeld := true } := by
  have entries : Report.noticeEntries { r with noticeHeld := false } = r.noticeEntries := rfl
  rw [Report.relist, if_neg (by simpa using some), if_pos rfl, Report.wantNotice_eq, entries]
  rfl

theorem Report.relist_unwanted {r : Report} (unheld : r.noticeHeld = false) : r.relist false = r := by
  unfold Report.relist
  split
  · rw [unheld, Bool.false_and, ← unheld]
  · rfl

/-- R181: what wants a NOTICE after the flush. -/
theorem Report.linkWants_iff (r : Report) : r.linkWants = true ↔
    (r.event .linkState).entersOnOccur = true ∨ r.noticeHeld = true ∨ ∃ f ∈ r.control, f.isNotice = true := by
  rw [Report.linkWants, Bool.or_eq_true, Bool.or_eq_true, List.any_eq_true, or_assoc]

/-- Settles O22: the records by the one occurrence, the places by the replies that are kept. -/
theorem linkChanges : Obligations.LinkChanges := by
  refine ⟨rfl, fun s => rfl, fun s => ⟨s.report.linkDown, rfl, ?_, ?_, ?_, fun k => ?_, ?_⟩⟩
  · exact Report.relist_endList _ _
  · exact Report.relist_busy _ _
  · exact Report.relist_reading _ _
  · have flushed (q : Report) : q.flushLink.event k = q.event k := Report.event_congr rfl k
    rw [Report.linkDown_eq, Report.event_congr (Report.relist_events _ _), Report.linkRecorded, flushed,
      Report.event_putEvent]
    split
    case isTrue is => rw [is]
    case isFalse => rfl
  · have entries : s.report.linkDown.noticeEntries = s.report.linkRecorded.noticeEntries := Report.relist_noticeEntries _ _
    rw [entries, ← Report.linkWants_iff, Report.linkDown_eq]
    dsimp only
    refine ⟨fun wanted some room => ?_, fun wanted some full => ?_, fun empty => ?_, fun unwanted => ?_⟩
    · rw [wanted, Report.relist_wanted some]
      exact (if_pos room).symm ▸ ⟨rfl, rfl⟩
    · rw [wanted, Report.relist_wanted some]
      exact (if_neg full).symm ▸ ⟨rfl, rfl⟩
    · rw [Report.relist_empty empty]
      refine ⟨rfl, ?_⟩
      have free := s.report.linkRecorded.freePlaces_pos_iff
      show (s.report.noticeHeld && s.report.linkRecorded.freePlaces == 0) = true ↔ _
      rw [Bool.and_eq_true, beq_iff_eq]
      refine and_congr_right fun _ => ⟨fun none room => ?_, fun full => ?_⟩
      · exact absurd none (Nat.pos_iff_ne_zero.mp (free.mpr room))
      · by_contra some
        exact full (free.mp (Nat.pos_of_ne_zero some))
    · have unheld : s.report.noticeHeld = false := by
        rw [Report.linkWants_iff, not_or, not_or] at unwanted
        obtain ⟨-, unheld, -⟩ := unwanted
        exact Bool.eq_false_iff.mpr unheld
      rw [Bool.eq_false_iff.mpr unwanted, Report.relist_unwanted (r := s.report.linkRecorded) unheld]
      exact ⟨rfl, unheld⟩

end Sys2Proof.Machine
end

section
/-! SUPPORT. The two request queues: when their commands wait, and what taking an item or answering a mark does. -/

namespace Sys2Proof.Machine

/-! ### The management queue -/

theorem State.serve_waits {s : State} {fits : Request → Bool} {f : Request → State → State}
    (h : s.request? fits = none) : s.serve fits f = .next s := by
  rw [State.serve, h]

theorem State.request?_nil {s : State} (fits : Request → Bool) (empty : s.port.mgmtQueue = []) :
    s.request? fits = none := by
  rw [State.request?, empty]

theorem State.request?_ungranted {s : State} (fits : Request → Bool) (h : s.report.grants = false) :
    s.request? fits = none := by
  unfold State.request?
  split
  · rfl
  · rw [h]
    rfl

theorem State.request?_unfit {s : State} {fits : Request → Bool} {r : Request} {rest : List Request}
    (head : s.port.mgmtQueue = r :: rest) (h : fits r = false) : s.request? fits = none := by
  rw [State.request?, head]
  simp [h]

/-- R154, R155, R164: the unit takes a request while it is IDLE and a place is free that no other claims. -/
theorem Report.grants_iff (r : Report) : r.grants = true ↔
    r.busy = none ∧ r.noticeHeld = false ∧ r.endList.length < endFrameRecords ∧ r.control.length < controlPlaces := by
  have places (idle : r.busy = none) : 0 < r.freePlaces ↔ r.control.length < controlPlaces := by
    rw [Report.freePlaces_pos, idle]
    rfl
  rw [Report.grants, Bool.and_eq_true, Bool.and_eq_true, Bool.and_eq_true, Option.isNone_iff_eq_none,
    Bool.not_eq_true', decide_eq_true_eq, decide_eq_true_eq]
  constructor
  · rintro ⟨⟨⟨idle, unheld⟩, short⟩, room⟩
    exact ⟨idle, unheld, short, (places idle).mp room⟩
  · rintro ⟨idle, unheld, short, room⟩
    exact ⟨⟨⟨idle, unheld⟩, short⟩, (places idle).mpr room⟩

theorem State.Takes.grants {s : State} {r : Request} {rest : List Request} (h : s.Takes r rest) :
    s.report.grants = true := by
  obtain ⟨-, idle, unheld, short, room⟩ := h
  exact s.report.grants_iff.mpr ⟨idle, unheld, short, room⟩

/-- A management command that takes the request at the head. -/
theorem State.Takes.serve {s : State} {r : Request} {rest : List Request} (h : s.Takes r rest)
    {fits : Request → Bool} (f : Request → State → State) (fit : fits r = true) :
    s.serve fits f = .next (f r (s.beginRequest r)) := by
  have granted := h.grants
  obtain ⟨head, -⟩ := h
  exact State.serve_taken s fits f r rest head granted fit

/-- R164: a request that is only answered leaves nothing but its REPLY. -/
theorem State.Takes.beginRequest_reply {s : State} {r : Request} {rest : List Request} (h : s.Takes r rest)
    (a : Answer) : (s.beginRequest r).reply r a = s.answered r rest a := by
  obtain ⟨head, idle, -⟩ := h
  rcases s with ⟨port, report, _, _, _, _, _, _, _, _, _, _, _, _⟩
  simp only at head idle
  simp [State.beginRequest, State.reply, State.answered, head, idle, State.setPort, State.setReport]

theorem exec_badRequestReply (s : State) :
    exec .badRequestReply s = s.serve isMarked fun r t => t.reply r (refusal (markStatus r.mark)) := rfl

theorem exec_configure (s : State) :
    exec .configure s = s.serve (isRequest kindConfigure) fun r t => t.configure r := rfl

theorem exec_loadSample (s : State) :
    exec .loadSample s = s.serve (isRequest kindLoadSample) fun r t => t.loadSample r := rfl

theorem exec_retireSample (s : State) :
    exec .retireSample s = s.serve (isRequest kindRetireSample) fun r t => t.retireSample r := rfl

theorem exec_querySample (s : State) :
    exec .querySample s = s.serve (isRequest kindQuerySample) fun r t => t.reply r (t.sampleAnswer r.body) := rfl

theorem exec_loadArticulation (s : State) :
    exec .loadArticulation s = s.serve (isRequest kindLoadArticulation) fun r t => t.loadArticulation r := rfl

theorem exec_loadZones (s : State) :
    exec .loadZones s = s.serve (isRequest kindLoadZones) fun r t => t.loadZones r := rfl

theorem exec_loadCurve (s : State) :
    exec .loadCurve s = s.serve (isRequest kindLoadCurve) fun r t => t.loadCurve r := rfl

theorem exec_loadMatrix (s : State) :
    exec .loadMatrix s = s.serve (isRequest kindLoadMatrix) fun r t => t.loadMatrix r := rfl

theorem exec_queryVoice (s : State) :
    exec .queryVoice s = s.serve (isRequest kindQueryVoice) fun r t => t.betweenPasses r State.finishQueryVoice := rfl

theorem exec_eventMask (s : State) :
    exec .eventMask s = s.serve (isRequest kindEventMask) fun r t => t.eventRequest r (maskChecks r.body) (maskWork r.body t.report) := rfl

theorem exec_eventClear (s : State) :
    exec .eventClear s = s.serve (isRequest kindEventClear) fun r t => t.eventRequest r (codeChecks r.body) (clearWork r.body t.report) := rfl

theorem exec_eventSet (s : State) :
    exec .eventSet s = s.serve (isRequest kindEventSet) fun r t => t.eventRequest r (codeChecks r.body) (setWork r.body t.report) := rfl

theorem exec_queryStatus (s : State) :
    exec .queryStatus s = s.serve (isRequest kindQueryStatus) fun r t => t.betweenPasses r State.finishQueryStatus := rfl

theorem exec_resync (s : State) :
    exec .resync s = s.serve (isRequest kindResync) fun r t => t.betweenPasses r State.finishResync := rfl

theorem exec_reset (s : State) :
    exec .reset s = s.serve (isRequest kindReset) fun r t => t.betweenPasses r State.finishReset := rfl

/-- R165: each command of an unmarked request takes those of its own kind. -/
theorem exec_requestCommand {c : Instr × Nat} (listed : c ∈ requestCommands) :
    ∃ f, ∀ s, exec c.1 s = s.serve (isRequest c.2) f := by
  simp only [requestCommands, List.mem_cons, List.not_mem_nil, or_false] at listed
  rcases listed with rfl | rfl | rfl | rfl | rfl | rfl | rfl | rfl | rfl | rfl | rfl | rfl | rfl | rfl | rfl
  · exact ⟨_, exec_configure⟩
  · exact ⟨_, exec_loadSample⟩
  · exact ⟨_, exec_retireSample⟩
  · exact ⟨_, exec_querySample⟩
  · exact ⟨_, exec_loadArticulation⟩
  · exact ⟨_, exec_loadZones⟩
  · exact ⟨_, exec_loadCurve⟩
  · exact ⟨_, exec_loadMatrix⟩
  · exact ⟨_, exec_queryVoice⟩
  · exact ⟨_, exec_eventMask⟩
  · exact ⟨_, exec_eventClear⟩
  · exact ⟨_, exec_eventSet⟩
  · exact ⟨_, exec_queryStatus⟩
  · exact ⟨_, exec_resync⟩
  · exact ⟨_, exec_reset⟩

theorem isRequest_eq_false {kind : Nat} {r : Request} (h : r.mark ≠ .unmarked ∨ r.kind ≠ kind) :
    isRequest kind r = false := by
  rw [isRequest, Bool.and_eq_false_iff]
  exact h.imp (fun other => beq_false_of_ne other) fun other => beq_false_of_ne other

/-! ### The voice request queue -/

/-- R153: with the ticks that become ready ahead of the others, those are handed on and the others wait. -/
theorem Port.itemTaken_split (p : Port) (clock : Nat) {ready later : List PendingTick}
    (ticks : p.pendingTicks = ready ++ later) (due : ∀ t ∈ ready, t.ahead ≤ 1) (waits : ∀ t ∈ later.head?, 1 < t.ahead) :
    p.itemTaken clock =
      { p with pendingTicks := later.map fun t => ⟨t.index, t.ahead - 1⟩,
               handed := p.handed ++ ready.map fun t => ⟨t.index, clock⟩ } := by
  let isReady (t : PendingTick) : Bool := t.ahead == 0
  let counted (t : PendingTick) : PendingTick := ⟨t.index, t.ahead - 1⟩
  have readyAll : ∀ t ∈ ready.map counted, isReady t = true := by
    intro t mem
    obtain ⟨tick, before, rfl⟩ := List.mem_map.mp mem
    have := due tick before
    simp only [isReady, counted, beq_iff_eq]
    omega
  have laterHead : ∀ t ∈ (later.map counted).head?, ¬ isReady t = true := by
    intro t mem
    rw [List.head?_map, Option.mem_map] at mem
    obtain ⟨tick, first, rfl⟩ := mem
    have := waits tick first
    simp only [isReady, counted, beq_iff_eq]
    omega
  have noMore : (later.map counted).takeWhile isReady = [] ∧ (later.map counted).dropWhile isReady = later.map counted := by
    cases h : later.map counted with
    | nil => exact ⟨rfl, rfl⟩
    | cons t more =>
      have not := laterHead t (by rw [h]; rfl)
      exact ⟨List.takeWhile_cons_of_neg not, List.dropWhile_cons_of_neg not⟩
  obtain ⟨noneTaken, noneDropped⟩ := noMore
  have split : p.pendingTicks.map counted = ready.map counted ++ later.map counted := by rw [ticks, List.map_append]
  have taken : (p.pendingTicks.map counted).takeWhile isReady = ready.map counted := by
    rw [split, List.takeWhile_append_of_pos readyAll, noneTaken, List.append_nil]
  have left : (p.pendingTicks.map counted).dropWhile isReady = later.map counted := by
    rw [split, List.dropWhile_append_of_pos readyAll, noneDropped]
  show { p with pendingTicks := (p.pendingTicks.map counted).dropWhile isReady,
                handed := p.handed ++ ((p.pendingTicks.map counted).takeWhile isReady).map fun t : PendingTick =>
                  (⟨t.index, clock⟩ : HandedTick) } = _
  rw [taken, left, List.map_map]
  rfl

theorem commandOf_mem {c : Instr} (h : c ∈ [Instr.voiceStart, .voiceRelease, .voiceStop, .stopAll]) :
    c = .voiceStart ∨ c = .voiceRelease ∨ c = .voiceStop ∨ c = .stopAll := by
  simpa using h

/-- R41: the item commands wait for a pass under way. -/
theorem exec_item_pass {c : Instr} (h : c ∈ [Instr.voiceStart, .voiceRelease, .voiceStop, .stopAll]) {s : State}
    (pass : s.pass.isSome = true) : exec c s = .next s := by
  rcases commandOf_mem h with rfl | rfl | rfl | rfl <;> exact if_pos pass

/-- R41: an item command waits where no item of its kind is at the head. -/
theorem exec_item_other {c : Instr} (h : c ∈ [Instr.voiceStart, .voiceRelease, .voiceStop, .stopAll]) {s : State}
    (other : ∀ i ∈ s.port.voiceQueue.head?, c ≠ commandOf i) : exec c s = .next s := by
  rcases s with ⟨⟨_, _, _, _, _, queue, _, _, _, _, _, _⟩, _, _, _, _, _, _, _, pass, _, _, _, _, _⟩
  cases pass with
  | some p => exact exec_item_pass h rfl
  | none =>
    cases queue with
    | nil => rcases commandOf_mem h with rfl | rfl | rfl | rfl <;> rfl
    | cons i rest =>
      have not := other i rfl
      rcases commandOf_mem h with rfl | rfl | rfl | rfl <;> cases i <;> first | rfl | exact absurd rfl not

/-- Settles O24: each queue's commands by its head, and what taking or answering leaves. -/
theorem requestQueues : Obligations.RequestQueues := by
  refine ⟨fun s c listed => ⟨fun waits => ?_, fun i rest head other => ?_⟩,
    fun p clock ready later ticks due waits => p.itemTaken_split clock ticks due waits,
    fun s r rest takes => ⟨fun mark => ?_, fun mark => ?_⟩, fun s none => ?_,
    fun s r rest head => ⟨fun mark => ?_, fun c listed other => ?_⟩⟩
  · rcases waits with pass | empty
    · exact exec_item_pass listed pass
    · exact exec_item_other listed (by rw [empty]; nofun)
  · refine exec_item_other listed fun j is => ?_
    rw [head] at is
    cases is
    exact other
  · rw [exec_badRequestReply, takes.serve _ (by rw [isMarked, mark]; rfl), takes.beginRequest_reply, mark]
    rfl
  · rw [exec_badRequestReply, takes.serve _ (by rw [isMarked, mark]; rfl), takes.beginRequest_reply, mark]
    rfl
  · have waits (fits : Request → Bool) : s.request? fits = Option.none := by
      rcases none with empty | blocked
      · exact State.request?_nil fits empty
      · refine State.request?_ungranted fits (Bool.eq_false_iff.mpr fun granted => ?_)
        obtain ⟨idle, unheld, short, room⟩ := s.report.grants_iff.mp granted
        rw [idle, unheld] at blocked
        rcases blocked with busy | held | long | full
        · cases busy
        · cases held
        · exact Nat.not_le.mpr short long
        · exact Nat.not_le.mpr room full
    refine ⟨(exec_badRequestReply s).trans (State.serve_waits (waits _)), fun c listed => ?_⟩
    obtain ⟨f, is⟩ := exec_requestCommand listed
    rw [is, State.serve_waits (waits _)]
  · refine (exec_badRequestReply s).trans (State.serve_waits (State.request?_unfit head ?_))
    rw [isMarked, mark]
    rfl
  · obtain ⟨f, is⟩ := exec_requestCommand listed
    rw [is, State.serve_waits (State.request?_unfit head (isRequest_eq_false other))]

/-! ### Zone matching -/

/-- R21: the first zone of a run that satisfies a test. -/
theorem Articulation.run_find?_iff (a : Articulation) (p : Nat → Bool) (z : Nat) : a.run.find? p = some z ↔
    a.firstZone ≤ z ∧ z < a.firstZone + a.zoneCount ∧ p z = true ∧ ∀ w, a.firstZone ≤ w → w < z → ¬ p w = true := by
  rw [Articulation.run, List.find?_map, Option.map_eq_some_iff]
  simp only [List.find?_range_eq_some, Function.comp_apply, List.mem_range]
  constructor
  · rintro ⟨i, ⟨fits, inRun, before⟩, rfl⟩
    refine ⟨by omega, by omega, fits, fun w least below => ?_⟩
    have not := before (w - a.firstZone) (by omega)
    rw [Nat.add_sub_cancel' least, Bool.not_eq_true'] at not
    rw [not]
    nofun
  · rintro ⟨least, inRun, fits, before⟩
    refine ⟨z - a.firstZone, ⟨?_, by omega, fun j below => ?_⟩, by omega⟩
    · rwa [Nat.add_sub_cancel' least]
    · rw [Bool.not_eq_true', Bool.eq_false_iff]
      exact before _ (by omega) (by omega)

theorem Articulation.run_find?_none (a : Articulation) (p : Nat → Bool) : a.run.find? p = none ↔
    ∀ w, a.firstZone ≤ w → w < a.firstZone + a.zoneCount → ¬ p w = true := by
  rw [List.find?_eq_none]
  refine ⟨fun h w least below => ?_, fun h w mem => ?_⟩
  · exact h w (List.mem_map.mpr ⟨w - a.firstZone, List.mem_range.mpr (by omega), by omega⟩)
  · obtain ⟨i, inRun, rfl⟩ := List.mem_map.mp mem
    have := List.mem_range.mp inRun
    exact h _ (by omega) (by omega)

/-- R26: two searches of the run, the cursor's slot first. -/
theorem State.chooseZone?_eq {s : State} {articulation : Nat} (least : articulation ≤ 4095) (note velocity : Nat) :
    s.chooseZone? articulation note velocity =
      ((s.articulation articulation).run.find? fun i =>
          (s.zone i).contains note velocity && (s.zone i).slot == (s.articulation articulation).cursor).or
        ((s.articulation articulation).run.find? fun i => (s.zone i).contains note velocity) := by
  rw [State.chooseZone?, if_pos (by rw [articulationCount]; omega)]
  dsimp only
  split <;> rename_i h <;> rw [h] <;> rfl

theorem Zone.contains_iff (z : Zone) (note velocity : Nat) : z.contains note velocity = true ↔
    z.noteLow ≤ note ∧ note ≤ z.noteHigh ∧ z.velocityLow ≤ velocity ∧ velocity ≤ z.velocityHigh := by
  simp only [Zone.contains, Bool.and_eq_true, decide_eq_true_eq, and_assoc]

/-- Settles O26: the first search that finds a zone gives it. -/
theorem zoneMatching : Obligations.ZoneMatching := by
  intro s articulation note velocity
  refine ⟨fun beyond => ?_, fun least z => ?_⟩
  · exact if_neg (Nat.not_lt.mpr beyond)
  · rw [State.chooseZone?_eq least, Option.or_eq_some_iff, Articulation.run_find?_iff, Articulation.run_find?_iff,
      Articulation.run_find?_none]
    simp only [Bool.and_eq_true, beq_iff_eq, Zone.contains_iff]

end Sys2Proof.Machine
end

section
/-! SUPPORT. VOICE_START: the checks of a start in their order (R42 to R45). -/

namespace Sys2Proof.Machine

theorem State.findTag?_eq_none {s : State} {tag : Tag} (absent : ∀ row ∈ s.voices, row.2.tag ≠ tag) :
    s.findTag? tag = none := by
  rw [State.findTag?, Option.map_eq_none_iff, List.find?_eq_none]
  exact fun row mem => by simpa using absent row mem

/-- R43: a start that the zone search or the sample and lane checks refuse. -/
theorem State.takeStart_noZone {s : State} {tag : Tag} {articulation note velocity : Nat}
    (absent : ∀ row ∈ s.voices, row.2.tag ≠ tag)
    (zone : s.chooseZone? articulation note (clampVelocity velocity) = none) (period : PeriodIndex)
    (offset source : Nat) :
    s.takeStart tag articulation note velocity period offset source = s.refuseStart tag .noZone := by
  rw [State.takeStart, State.findTag?_eq_none absent, zone]
  rfl

theorem State.takeStart_refused {s : State} {tag : Tag} {articulation note velocity z : Nat} {reason : EndReason}
    (absent : ∀ row ∈ s.voices, row.2.tag ≠ tag)
    (zone : s.chooseZone? articulation note (clampVelocity velocity) = some z)
    (refused : s.startRefusal? (s.entry? (s.zone z).handle) = some reason) (period : PeriodIndex)
    (offset source : Nat) :
    s.takeStart tag articulation note velocity period offset source = s.refuseStart tag reason := by
  rw [State.takeStart, State.findTag?_eq_none absent, zone]
  dsimp only
  rw [refused]
  rfl

/-- R43: a start that passes the checks comes to the allocation of its record. -/
theorem State.takeStart_passed {s : State} {tag : Tag} {articulation note velocity z : Nat} {e : SampleEntry}
    (absent : ∀ row ∈ s.voices, row.2.tag ≠ tag)
    (zone : s.chooseZone? articulation note (clampVelocity velocity) = some z)
    (entry : s.entry? (s.zone z).handle = some e) (ready : e.state = .ready)
    (online : (s.lane e.lane).state ≠ .offline) (period : PeriodIndex) (offset source : Nat) :
    s.takeStart tag articulation note velocity period offset source =
      s.allocateStart e tag articulation z velocity period offset source := by
  have passes : s.startRefusal? (some e) = none := by
    rw [State.startRefusal?, ready]
    exact if_neg online
  rw [State.takeStart, State.findTag?_eq_none absent, zone]
  dsimp only
  rw [entry, passes]
  rfl

/-- R45: with every voice PENDING or PLAYING there is no victim. -/
theorem chooseVictim_eq_none {t : Table Voice} (h : ∀ row ∈ t, row.2.state = .pending ∨ row.2.state = .playing) :
    chooseVictim t = none := by
  have empty : t.filter (fun row => isCandidate row.2) = [] := by
    refine List.filter_eq_nil_iff.mpr fun row mem => ?_
    rw [isCandidate]
    rcases h row mem with is | is <;> rw [is] <;> decide
  rw [chooseVictim, empty]

theorem State.allocateStart_noVictim {s : State} {e : SampleEntry} (full : s.config.voiceLimit ≤ s.voices.length)
    (noVictim : ∀ row ∈ s.voices, row.2.state = .pending ∨ row.2.state = .playing) (tag : Tag)
    (articulation zone velocity : Nat) (period : PeriodIndex) (offset source : Nat) :
    s.allocateStart e tag articulation zone velocity period offset source = s.refuseStart tag .voiceLimit := by
  rw [State.allocateStart, if_neg (Nat.not_lt.mpr full), chooseVictim_eq_none noVictim]

/-- R41, R47: a refused start leaves the port with the item off, its end record and its event. -/
theorem State.finishItem_refuseStart_popItem (s : State) (rest : List VoiceItem) (tag : Tag) (reason : EndReason) :
    ((s.popItem rest).refuseStart tag reason).finishItem =
      State.dispatch { s with port := s.itemOff rest,
                              report := (s.report.appendEnd ⟨tag, reason, 0, 0, 0⟩).raise (.startRefused tag reason) } :=
  rfl

/-- Settles O27: each check refuses with its own reason. -/
theorem startRefused : Obligations.StartRefused := by
  intro s tag articulation note velocity period offset source rest reason takes absent check
  have stillAbsent : ∀ row ∈ (s.popItem rest).voices, row.2.tag ≠ tag := absent
  rw [exec_voiceStart_of_takesItem takes, ← State.finishItem_refuseStart_popItem]
  congr 2
  rcases check with ⟨zone, rfl⟩ | ⟨z, zone, checks⟩
  · exact State.takeStart_noZone stillAbsent zone period offset source
  have refused (why : s.startRefusal? (s.entry? (s.zone z).handle) = some reason) :=
    State.takeStart_refused (s := s.popItem rest) stillAbsent zone why period offset source
  rcases checks with ⟨entry, rfl⟩ | ⟨e, entry, checks⟩
  · exact refused (by rw [entry]; rfl)
  rcases checks with ⟨state, rfl⟩ | ⟨state, rfl⟩ | ⟨state, offline, rfl⟩ | ⟨ready, online, full, noVictim, rfl⟩
  · refine refused ?_
    rw [entry, State.startRefusal?]
    rcases state with is | is <;> rw [is]
  · refine refused ?_
    rw [entry, State.startRefusal?, state]
  · refine refused ?_
    rw [entry, State.startRefusal?, state]
    exact if_pos offline
  · exact (State.takeStart_passed (s := s.popItem rest) stillAbsent zone entry ready online period offset source).trans
      (State.allocateStart_noVictim (s := s.popItem rest) full noVictim tag articulation z velocity period offset source)

end Sys2Proof.Machine
end

section
/-! SUPPORT. The rings and the fetch queues by themselves: the scheduler's operations on two states that agree in slots,
lanes and configuration leave them agreeing, whatever the voices, the reports and the port hold. -/

namespace Sys2Proof.Machine

/-- Two states agree in the ring slots, the lanes and the configuration. -/
structure State.SameRings (s t : State) : Prop where
  slots  : t.slots = s.slots
  lanes  : t.lanes = s.lanes
  config : t.config = s.config

namespace State.SameRings

variable {s t u : State}

theorem refl (s : State) : s.SameRings s := ⟨rfl, rfl, rfl⟩

theorem symm (h : s.SameRings t) : t.SameRings s := ⟨h.slots.symm, h.lanes.symm, h.config.symm⟩

theorem trans (h : s.SameRings t) (k : t.SameRings u) : s.SameRings u :=
  ⟨k.slots.trans h.slots, k.lanes.trans h.lanes, k.config.trans h.config⟩

theorem slot? (h : s.SameRings t) (v j : Nat) : t.slot? v j = s.slot? v j := by
  rw [State.slot?, State.slot?, h.slots]

theorem lane (h : s.SameRings t) (l : LaneId) : t.lane l = s.lane l := by
  rw [State.lane, State.lane, h.lanes]

theorem putSlot (h : s.SameRings t) (v j : Nat) (x : Slot) : (s.putSlot v j x).SameRings (t.putSlot v j x) := by
  refine ⟨?_, h.lanes, h.config⟩
  simp only [State.putSlot, State.setSlots_slots, h.slots]

theorem clearSlot (h : s.SameRings t) (v j : Nat) : (s.clearSlot v j).SameRings (t.clearSlot v j) := by
  refine ⟨?_, h.lanes, h.config⟩
  simp only [State.clearSlot, State.setSlots_slots, h.slots]

theorem setLane (h : s.SameRings t) (l : LaneId) (x : Lane) : (s.setLane l x).SameRings (t.setLane l x) := by
  refine ⟨h.slots, ?_, h.config⟩
  simp only [State.setLane, State.setLanes_lanes, h.lanes]

theorem mapLanes (h : s.SameRings t) {f g : Lane → Lane} (eq : f = g) :
    (s.setLanes (PerLane.map s.lanes f)).SameRings (t.setLanes (PerLane.map t.lanes g)) := by
  refine ⟨h.slots, ?_, h.config⟩
  simp only [State.setLanes_lanes, h.lanes, eq]

theorem raise (h : s.SameRings t) (c d : Capture) : (s.raise c).SameRings (t.raise d) := ⟨h.slots, h.lanes, h.config⟩

theorem unqueueSlot (h : s.SameRings t) (v j : Nat) : (s.unqueueSlot v j).SameRings (t.unqueueSlot v j) :=
  h.mapLanes rfl

/-- A fold of operations that keep the agreement. -/
theorem foldl {α : Type} {f : State → α → State} (step : ∀ {s t : State} (a : α), s.SameRings t → (f s a).SameRings (f t a))
    (l : List α) (h : s.SameRings t) : (l.foldl f s).SameRings (l.foldl f t) := by
  induction l generalizing s t with
  | nil => exact h
  | cons a l ih => exact ih (step a h)

theorem enqueue (h : s.SameRings t) (l : LaneId) (n : QueueEntry) : (s.enqueue l n).SameRings (t.enqueue l n) := by
  rw [State.enqueue, State.enqueue, h.lane]
  exact h.setLane _ _

theorem setUpChunk (h : s.SameRings t) (v j : Nat) (x : Voice) (e : SampleEntry) (k : Nat) :
    (s.setUpChunk v j x e k).SameRings (t.setUpChunk v j x e k) := by
  rw [State.setUpChunk, State.setUpChunk, h.lane, h.config]
  split
  · rw [State.loseNewChunk, State.loseNewChunk, h.config]
    exact (h.putSlot _ _ _).raise _ _
  · exact foldl (f := fun s (pi : PartRange × Nat) => s.enqueue e.lane (queueEntry v j _ e pi.2 pi.1)) (fun _ k => k.enqueue _ _) _
      (h.putSlot _ _ _)

theorem requestChunk (h : s.SameRings t) (v : Nat) (x : Voice) (e : SampleEntry) (k : Nat) :
    (s.requestChunk v x e k).SameRings (t.requestChunk v x e k) := by
  rw [State.requestChunk, State.requestChunk, h.slot?]
  split
  · exact h.setUpChunk _ _ _ _ _
  · split
    · exact h.putSlot _ _ _
    · exact h

theorem prefill (h : s.SameRings t) (v : Nat) (x : Voice) (e : SampleEntry) :
    (s.prefill v x e).SameRings (t.prefill v x e) := by
  unfold State.prefill
  generalize x.headChunks = k
  induction ringSlots generalizing k s t with
  | zero => exact h
  | succ n ih =>
    rw [State.prefillFrom, State.prefillFrom]
    split
    · exact h
    · exact ih (h.requestChunk _ _ _ _) _

theorem shiftSlot (h : s.SameRings t) (v : Nat) (delta : PeriodIndex) (j : Nat) :
    (s.shiftSlot v delta j).SameRings (t.shiftSlot v delta j) := by
  rw [State.shiftSlot, State.shiftSlot, h.slot?]
  split
  · exact h
  · split
    · exact h.putSlot _ _ _
    · exact h

theorem shiftDeadlines (h : s.SameRings t) (v : Nat) (delta : PeriodIndex) :
    (s.shiftDeadlines v delta).SameRings (t.shiftDeadlines v delta) := by
  have shifted := foldl (f := fun s j => s.shiftSlot v delta j) (fun j k => k.shiftSlot v delta j)
    (List.range ringSlots) h
  refine shifted.mapLanes (funext fun l => ?_)
  have redated : State.redated (List.foldl (fun s j => s.shiftSlot v delta j) t (List.range ringSlots)) =
      State.redated (List.foldl (fun s j => s.shiftSlot v delta j) s (List.range ringSlots)) := by
    funext n
    rw [State.redated, State.redated, shifted.slot?]
  rw [redated]

theorem cancelSlot (h : s.SameRings t) (v j : Nat) : (s.cancelSlot v j).SameRings (t.cancelSlot v j) := by
  rw [State.cancelSlot, State.cancelSlot, h.slot?]
  split
  · exact h
  · split
    · exact (h.clearSlot _ _).unqueueSlot _ _
    · exact (h.putSlot _ _ _).unqueueSlot _ _

theorem cancelRing (h : s.SameRings t) (v : Nat) : (s.cancelRing v).SameRings (t.cancelRing v) :=
  foldl (f := fun s j => s.cancelSlot v j) (fun j k => k.cancelSlot v j) _ h

end State.SameRings

/-- What neither touches the rings nor the configuration agrees with what was before. -/
theorem State.ChangesOnly.sameRings {s t : State} {ps : List Part} (h : s.ChangesOnly t ps) (slots : Part.slots ∉ ps)
    (lanes : Part.lanes ∉ ps) (config : Part.config ∉ ps) : s.SameRings t :=
  ⟨h.slots slots, h.lanes lanes, h.config config⟩

/-- R81: cancelling a ring touches the slots and the lanes alone. -/
theorem State.cancelRing_changes (s : State) (v : Nat) : s.ChangesOnly (s.cancelRing v) [.slots, .lanes] := by
  refine State.foldl_changes _ (fun t j => ?_) _ s
  unfold State.cancelSlot
  split
  · exact .refl t _
  · have unqueued (u : State) (h : t.ChangesOnly u [.slots, .lanes]) : t.ChangesOnly (u.unqueueSlot v j) [.slots, .lanes] :=
      h.trans ((u.setLanes_changes _).wider (by decide))
    split
    · exact unqueued _ ((t.setSlots_changes _).wider (by decide))
    · exact unqueued _ ((t.setSlots_changes _).wider (by decide))

end Sys2Proof.Machine
end

section
/-! SUPPORT. The end of voices (R57): what the end of one leaves, and what ending or changing many in a row leaves. -/

namespace Sys2Proof.Machine

/-! ### Records and entries after an update -/

/-- R17: a voice that played the entry has ended. -/
theorem State.uncountVoice_entry? (s : State) (h g : Nat) :
    (s.uncountVoice h).entry? g = if g = h then (s.entry? g).bind uncounted else s.entry? g := by
  unfold State.uncountVoice
  split
  case h_1 e entry =>
    by_cases last : e.state = .retiring ∧ e.refCount ≤ 1
    · rw [if_pos last, State.clearEntry_entry?]
      split
      case isTrue same => rw [same, entry, Option.bind_some, uncounted, if_pos last]
      case isFalse => rfl
    · rw [if_neg last, State.putEntry_entry?]
      split
      case isTrue same => rw [same, entry, Option.bind_some, uncounted, if_neg last]
      case isFalse => rfl
  case h_2 entry =>
    split
    case isTrue same => rw [same, entry]; rfl
    case isFalse => rfl

/-- R17: a voice starts on the entry. -/
theorem State.countVoice_entry? (s : State) (h g : Nat) :
    (s.countVoice h).entry? g =
      if g = h then (s.entry? g).map fun e => { e with refCount := e.refCount + 1 } else s.entry? g := by
  unfold State.countVoice
  split
  case h_1 e entry =>
    rw [State.putEntry_entry?]
    split
    case isTrue same => rw [same, entry, Option.map_some]
    case isFalse => rfl
  case h_2 entry =>
    split
    case isTrue same => rw [same, entry]; rfl
    case isFalse => rfl

/-- The four articulation tables are those of `s`; the sample map may differ. -/
def State.SameTables (s t : State) : Prop :=
  t.library.articulations = s.library.articulations ∧ t.library.zones = s.library.zones ∧
    t.library.curves = s.library.curves ∧ t.library.matrices = s.library.matrices

theorem State.SameTables.refl (s : State) : s.SameTables s := ⟨rfl, rfl, rfl, rfl⟩

theorem State.SameTables.trans {s t u : State} (h : s.SameTables t) (k : t.SameTables u) : s.SameTables u := by
  obtain ⟨a, z, c, m⟩ := h
  obtain ⟨a', z', c', m'⟩ := k
  exact ⟨a'.trans a, z'.trans z, c'.trans c, m'.trans m⟩

theorem State.SameTables.of_library {s t : State} (h : t.library = s.library) : s.SameTables t := by
  rw [State.SameTables, h]
  exact ⟨rfl, rfl, rfl, rfl⟩

theorem State.uncountVoice_sameTables (s : State) (h : Nat) : s.SameTables (s.uncountVoice h) := by
  unfold State.uncountVoice
  split
  · split <;> exact ⟨rfl, rfl, rfl, rfl⟩
  · exact .refl s

theorem State.countVoice_sameTables (s : State) (h : Nat) : s.SameTables (s.countVoice h) := by
  unfold State.countVoice
  split
  · exact ⟨rfl, rfl, rfl, rfl⟩
  · exact .refl s

theorem State.uncountVoice_changes (s : State) (h : Nat) : s.ChangesOnly (s.uncountVoice h) [.library] := by
  unfold State.uncountVoice
  split
  · split <;> exact s.setLibrary_changes _
  · exact .refl s _

theorem State.countVoice_changes (s : State) (h : Nat) : s.ChangesOnly (s.countVoice h) [.library] := by
  unfold State.countVoice
  split
  · exact s.setLibrary_changes _
  · exact .refl s _

/-! ### One voice ends or changes -/

/-- What a voice's turn leaves: the voice `x` of record `v` becomes `left`, `none` for one that ends by `reason`. -/
structure State.Settles (s t : State) (reason : EndReason) (v : Nat) (x : Voice) (left : Option Voice) : Prop where
  here    : t.voice? v = left
  others  : ∀ w, w ≠ v → t.voice? w = s.voice? w
  report  : t.report = if left = none then s.report.appendEnd (x.endRecord reason x.emit) else s.report
  rings   : (if left = none then s.cancelRing v else s).SameRings t
  entries : ∀ g, t.entry? g = if left = none ∧ g = x.handle then (s.entry? g).bind uncounted else s.entry? g
  tables  : s.SameTables t
  only    : s.ChangesOnly t [.report, .library, .voices, .slots, .lanes]

/-- What the end of the voice `x` of record `v` at a stream position leaves. -/
structure State.EndsAt (s t : State) (reason : EndReason) (position : Int) (v : Nat) (x : Voice) : Prop where
  here    : t.voice? v = none
  others  : ∀ w, w ≠ v → t.voice? w = s.voice? w
  report  : t.report = s.report.appendEnd (x.endRecord reason position)
  rings   : (s.cancelRing v).SameRings t
  entries : ∀ g, t.entry? g = if g = x.handle then (s.entry? g).bind uncounted else s.entry? g
  tables  : s.SameTables t
  only    : s.ChangesOnly t [.report, .library, .voices, .slots, .lanes]

theorem State.endVoiceAt_eq {s : State} {v : Nat} {x : Voice} (voice : s.voice? v = some x) (reason : EndReason)
    (position : Int) : s.endVoiceAt v reason position =
      (((s.appendEnd (x.endRecord reason position)).uncountVoice x.handle).cancelRing v).freeVoice v := by
  rw [State.endVoiceAt, voice]

/-- R57, R58: the end of a voice at a stream position. -/
theorem State.endVoiceAt_ends {s : State} {v : Nat} {x : Voice} (voice : s.voice? v = some x) (reason : EndReason)
    (position : Int) : s.EndsAt (s.endVoiceAt v reason position) reason position v x := by
  have appended : s.ChangesOnly (s.appendEnd (x.endRecord reason position)) [.report] := s.setReport_changes _
  have uncounts := State.uncountVoice_changes (s.appendEnd (x.endRecord reason position)) x.handle
  have cancels := State.cancelRing_changes ((s.appendEnd (x.endRecord reason position)).uncountVoice x.handle) v
  have freed (t : State) : t.ChangesOnly (t.freeVoice v) [.voices] := t.setVoices_changes _
  have before := (appended.wider (qs := [.report, .library]) (by decide)).trans (uncounts.wider (by decide))
  have ringed := (before.wider (qs := [.report, .library, .slots, .lanes]) (by decide)).trans (cancels.wider (by decide))
  rw [State.endVoiceAt_eq voice]
  refine ⟨?_, fun w other => ?_, ?_, ?_, fun g => ?_, ?_, ?_⟩
  · rw [State.freeVoice_voice?, if_pos rfl]
  · rw [State.freeVoice_voice?, if_neg other, State.voice?, State.voice?, ringed.voices (by decide)]
  · rw [(freed _).report (by decide), cancels.report (by decide), uncounts.report (by decide)]
    rfl
  · exact ((before.sameRings (by decide) (by decide) (by decide)).cancelRing v).trans
      ((freed _).sameRings (by decide) (by decide) (by decide))
  · rw [State.entry?_congr ((congrArg Library.samples ((freed _).library (by decide))).trans
      (congrArg Library.samples (cancels.library (by decide)))), State.uncountVoice_entry?]
    rfl
  · exact (State.SameTables.of_library (appended.library (by decide))).trans
      ((State.uncountVoice_sameTables _ _).trans ((State.SameTables.of_library (cancels.library (by decide))).trans
        (State.SameTables.of_library ((freed _).library (by decide)))))
  · exact (ringed.wider (by decide)).trans ((freed _).wider (by decide))

/-- R57, R58: the end of a voice at its emit position. -/
theorem State.endVoice_settles {s : State} {v : Nat} {x : Voice} (voice : s.voice? v = some x) (reason : EndReason) :
    s.Settles (s.endVoice v reason) reason v x none := by
  have ends := State.endVoiceAt_ends voice reason x.emit
  have is : s.endVoice v reason = s.endVoiceAt v reason x.emit := by rw [State.endVoice, voice]
  rw [is]
  refine ⟨ends.here, ends.others, ends.report.trans (if_pos rfl).symm, (if_pos rfl).symm ▸ ends.rings, fun g => ?_,
    ends.tables, ends.only⟩
  simp only [true_and]
  exact ends.entries g

theorem State.settles_self {s : State} {v : Nat} {x : Voice} (voice : s.voice? v = some x) (reason : EndReason) :
    s.Settles s reason v x (some x) :=
  ⟨voice, fun _ _ => rfl, rfl, .refl s, fun g => by simp, .refl s, .refl s _⟩

theorem State.putVoice_settles (s : State) (v : Nat) (x y : Voice) (reason : EndReason) :
    s.Settles (s.putVoice v y) reason v x (some y) := by
  refine ⟨?_, fun w other => ?_, rfl, ⟨rfl, rfl, rfl⟩, fun g => by simp [State.putVoice, State.entry?], ⟨rfl, rfl, rfl, rfl⟩,
    (s.setVoices_changes _).wider (by decide)⟩
  · rw [State.putVoice_voice?, if_pos rfl]
  · rw [State.putVoice_voice?, if_neg other]

/-! ### Many voices in a row -/

/-- The rows of voices that end. -/
def endingRows (out : Voice → Option Voice) (rows : Table Voice) : Table Voice :=
  rows.filter fun row => (out row.2).isNone

theorem endingRows_cons (out : Voice → Option Voice) (v : Nat) (x : Voice) (rows : Table Voice) :
    endingRows out ((v, x) :: rows) = if out x = none then (v, x) :: endingRows out rows else endingRows out rows := by
  rw [endingRows, List.filter_cons]
  cases out x <;> rfl

/-- What the turns of the rows `rows`, each once, leave of `s`: `out` says what each voice becomes. -/
structure State.SettlesAll (s t : State) (reason : EndReason) (out : Voice → Option Voice) (rows : Table Voice) : Prop where
  listed  : ∀ v x, (v, x) ∈ rows → t.voice? v = out x
  others  : ∀ w, w ∉ Table.keys rows → t.voice? w = s.voice? w
  report  : t.report =
    (endingRows out rows).foldl (fun r row => r.appendEnd (row.2.endRecord reason row.2.emit)) s.report
  rings   : ((endingRows out rows).foldl (fun r row => r.cancelRing row.1) s).SameRings t
  entries : ∀ g, t.entry? g =
    ((endingRows out rows).filter fun row => row.2.handle == g).foldl (fun f _ => f.bind uncounted) (s.entry? g)
  tables  : s.SameTables t
  only    : s.ChangesOnly t [.report, .library, .voices, .slots, .lanes]

theorem State.SettlesAll.refl (s : State) (reason : EndReason) (out : Voice → Option Voice) :
    s.SettlesAll s reason out [] :=
  ⟨nofun, fun _ _ => rfl, rfl, .refl s, fun _ => rfl, .refl s, .refl s _⟩

/-- One turn, then the others. -/
theorem State.Settles.cons {s t u : State} {reason : EndReason} {v : Nat} {x : Voice} {out : Voice → Option Voice}
    {rows : Table Voice} (first : s.Settles t reason v x (out x)) (rest : t.SettlesAll u reason out rows)
    (later : v ∉ Table.keys rows) : s.SettlesAll u reason out ((v, x) :: rows) := by
  refine ⟨fun w y mem => ?_, fun w unlisted => ?_, ?_, ?_, fun g => ?_, first.tables.trans rest.tables,
    first.only.trans rest.only⟩
  · rcases List.mem_cons.mp mem with here | mem
    · cases here
      rw [rest.others v later, first.here]
    · exact rest.listed w y mem
  · rw [Table.keys, List.map_cons, List.mem_cons, not_or] at unlisted
    obtain ⟨other, unlisted⟩ := unlisted
    rw [rest.others w unlisted, first.others w other]
  · rw [rest.report, first.report, endingRows_cons]
    split <;> rfl
  · refine State.SameRings.trans ?_ rest.rings
    have agree := first.rings
    rw [endingRows_cons]
    split
    case isTrue ends =>
      rw [if_pos ends] at agree
      exact State.SameRings.foldl (fun row k => k.cancelRing row.1) _ agree
    case isFalse stays =>
      rw [if_neg stays] at agree
      exact State.SameRings.foldl (fun row k => k.cancelRing row.1) _ agree
  · rw [rest.entries, first.entries, endingRows_cons]
    by_cases ends : out x = none
    · by_cases plays : x.handle = g
      · rw [if_pos ends, if_pos ⟨ends, plays.symm⟩, List.filter_cons_of_pos (by simpa using plays)]
        rfl
      · rw [if_pos ends, if_neg (fun both => plays both.2.symm), List.filter_cons_of_neg (by simpa using plays)]
    · rw [if_neg ends, if_neg (fun both => ends both.1)]

/-- The turns of the records of a table, in index order. -/
theorem State.foldl_settlesAll {f : State → Nat → State} {reason : EndReason} {out : Voice → Option Voice}
    (step : ∀ (s : State) (v : Nat) (x : Voice), s.voice? v = some x → s.Settles (f s v) reason v x (out x))
    {rows : Table Voice} (rising : Table.Rising rows) {s : State} (listed : ∀ v x, (v, x) ∈ rows → s.voice? v = some x) :
    s.SettlesAll ((Table.keys rows).foldl f s) reason out rows := by
  induction rows generalizing s with
  | nil => exact .refl s reason out
  | cons row rows ih =>
    obtain ⟨v, x⟩ := row
    obtain ⟨above, rises⟩ := List.pairwise_cons.mp rising
    have first := step s v x (listed v x (List.mem_cons_self ..))
    have later : v ∉ Table.keys rows := by
      intro mem
      obtain ⟨y, mem⟩ := Table.mem_keys.mp mem
      exact Nat.lt_irrefl _ (above (v, y) mem)
    refine first.cons (ih rises fun w y mem => ?_) later
    have other : w ≠ v := Nat.ne_of_gt (above (w, y) mem)
    rw [first.others w other]
    exact listed w y (List.mem_cons_of_mem _ mem)

theorem State.settlesAll_voices {f : State → Nat → State} {reason : EndReason} {out : Voice → Option Voice}
    (step : ∀ (s : State) (v : Nat) (x : Voice), s.voice? v = some x → s.Settles (f s v) reason v x (out x))
    {s : State} (rising : Table.Rising s.voices) :
    s.SettlesAll ((Table.keys s.voices).foldl f s) reason out s.voices :=
  State.foldl_settlesAll step rising fun _ _ mem => Table.get?_of_mem rising mem

/-- Every record after the turns of all. -/
theorem State.SettlesAll.voice? {s t : State} {reason : EndReason} {out : Voice → Option Voice}
    (h : s.SettlesAll t reason out s.voices) (rising : Table.Rising s.voices) (v : Nat) : t.voice? v = (s.voice? v).bind out := by
  cases voice : s.voice? v with
  | none =>
    have unlisted : v ∉ Table.keys s.voices := fun mem => by
      obtain ⟨x, mem⟩ := Table.mem_keys.mp mem
      rw [State.voice?, Table.get?_of_mem rising mem] at voice
      cases voice
    rw [h.others v unlisted, voice, Option.bind_none]
  | some x => rw [h.listed v x (Table.mem_of_get? voice), Option.bind_some]

end Sys2Proof.Machine
end

section
/-! SUPPORT. VOICE_RELEASE, VOICE_STOP and STOP_ALL (R52 to R57). -/

namespace Sys2Proof.Machine

/-! ### Taking the item -/

theorem exec_voiceRelease_of_takesItem {s : State} {tag : Tag} {period : PeriodIndex} {offset : Nat}
    {rest : List VoiceItem} (h : s.TakesItem (.release tag period offset) rest) :
    exec .voiceRelease s = .next ((s.popItem rest).takeRelease tag period offset).finishItem := by
  obtain ⟨noPass, head⟩ := h
  show execVoiceRelease s = _
  simp [execVoiceRelease, State.passUnderWay, noPass, head]

theorem exec_voiceStop_of_takesItem {s : State} {tag : Tag} {rest : List VoiceItem} (h : s.TakesItem (.stop tag) rest) :
    exec .voiceStop s = .next ((s.popItem rest).takeStop tag).finishItem := by
  obtain ⟨noPass, head⟩ := h
  show execVoiceStop s = _
  simp [execVoiceStop, State.passUnderWay, noPass, head]

theorem exec_stopAll_of_takesItem {s : State} {rest : List VoiceItem} (h : s.TakesItem .stopAll rest) :
    exec .stopAll s = .next (s.popItem rest).takeStopAll.finishItem := by
  obtain ⟨noPass, head⟩ := h
  show execStopAll s = _
  simp [execStopAll, State.passUnderWay, noPass, head]

/-- R41, R153: an item whose carrying out touches neither the port nor the tracker leaves the port with the item off. -/
theorem State.finishItem_eq {s t : State} {rest : List VoiceItem} {ps : List Part}
    (h : (s.popItem rest).ChangesOnly t ps) (port : Part.port ∉ ps) (cadence : Part.cadence ∉ ps) :
    t.finishItem = (t.setPort (s.itemOff rest)).dispatch := by
  rw [State.finishItem, h.port port, h.cadence cadence]
  rfl

theorem State.popItem_changes (s : State) (rest : List VoiceItem) : s.ChangesOnly (s.popItem rest) [.port] :=
  s.setPort_changes _

/-- R39: with distinct tags the search by tag finds the voice that carries it. -/
theorem State.findTag?_eq_some {s : State} {v : Nat} {x : Voice} (distinct : s.TagsDistinct)
    (voice : s.voice? v = some x) : s.findTag? x.tag = some v := by
  obtain ⟨rising, only⟩ := distinct
  have found : (s.voices.find? fun row => row.2.tag == x.tag).isSome = true :=
    List.find?_isSome.mpr ⟨(v, x), Table.mem_of_get? voice, by simp⟩
  obtain ⟨⟨w, y⟩, is⟩ := Option.isSome_iff_exists.mp found
  have carries : y.tag = x.tag := by simpa using List.find?_some is
  have listed : s.voice? w = some y := Table.get?_of_mem rising (List.mem_of_find?_eq_some is)
  rw [State.findTag?, is, Option.map_some, only w v y x listed voice carries]

/-- A state that differs in its reports alone. -/
theorem State.ChangesOnly.eq_setReport {s t : State} (h : s.ChangesOnly t [.report]) : t = s.setReport t.report := by
  rcases t with ⟨_, _, _, _, _, _, _, _, _, _, _, _, _, _⟩
  obtain rfl := h.port (by decide)
  obtain rfl := h.library (by decide)
  obtain rfl := h.voices (by decide)
  obtain rfl := h.nextOrder (by decide)
  obtain rfl := h.slots (by decide)
  obtain rfl := h.lanes (by decide)
  obtain rfl := h.cadence (by decide)
  obtain rfl := h.pass (by decide)
  obtain rfl := h.config (by decide)
  obtain rfl := h.headStore (by decide)
  obtain rfl := h.ringStore (by decide)
  obtain rfl := h.freeCount (by decide)
  obtain rfl := h.pending (by decide)
  rfl

/-! ### The end of one voice -/

/-- R57: what the end of a voice leaves, the port and the reports apart. -/
theorem State.Settles.ended {s r t : State} {reason : EndReason} {v : Nat} {x : Voice}
    (before : s.ChangesOnly r [.port, .report]) (h : r.Settles t reason v x none) (p : Port) :
    Ended s (t.setPort p) v x := by
  obtain ⟨articulations, zones, curves, matrices⟩ :=
    (State.SameTables.of_library (before.library (by decide))).trans h.tables
  have agree : (s.cancelRing v).SameRings t := by
    have ringed := h.rings
    rw [if_pos rfl] at ringed
    exact ((before.sameRings (by decide) (by decide) (by decide)).cancelRing v).trans ringed
  have only := (before.wider (qs := [.port, .report, .library, .voices, .slots, .lanes]) (by decide)).trans
    (h.only.wider (by decide))
  refine ⟨h.here, fun w other => ?_, agree.slots, agree.lanes, fun g => ?_, articulations, zones, curves, matrices,
    only.cadence (by decide), only.config (by decide), only.nextOrder (by decide), only.headStore (by decide),
    only.ringStore (by decide), only.freeCount (by decide)⟩
  · refine (h.others w other).trans ?_
    rw [State.voice?, State.voice?, before.voices (by decide)]
  · refine (h.entries g).trans ?_
    rw [State.entry?_congr (congrArg Library.samples (before.library (by decide)))]
    simp only [true_and]

/-- R57: an item that ends a voice. -/
theorem State.finishItem_ended {s r t : State} {rest : List VoiceItem} {reason : EndReason} {v : Nat} {x : Voice}
    (before : (s.popItem rest).ChangesOnly r [.report]) (h : r.Settles t reason v x none) :
    ∃ u : State, t.finishItem = u.dispatch ∧ Ended s u v x ∧
      u.report = r.report.appendEnd (x.endRecord reason x.emit) ∧ u.port = s.itemOff rest ∧ u.pass = s.pass := by
  have popped : s.ChangesOnly r [.port, .report] :=
    ((s.popItem_changes rest).wider (by decide)).trans (before.wider (by decide))
  refine ⟨t.setPort (s.itemOff rest), ?_, h.ended popped _, ?_, rfl, ?_⟩
  · exact State.finishItem_eq ((before.wider (qs := [.report, .library, .voices, .slots, .lanes]) (by decide)).trans
      (h.only.wider (by decide))) (by decide) (by decide)
  · exact h.report.trans (if_pos rfl)
  · exact (h.only.pass (by decide)).trans (popped.pass (by decide))

/-! ### VOICE_RELEASE -/

theorem State.takeRelease_absent {s : State} {tag : Tag} (absent : s.findTag? tag = none) (period : PeriodIndex)
    (offset : Nat) : s.takeRelease tag period offset = s.raise (.unknownTag tag .release) := by
  rw [State.takeRelease, absent]

/-- R52: a release of a voice that is ending already. -/
theorem State.takeRelease_ignored {s : State} {tag : Tag} {v : Nat} {x : Voice} (found : s.findTag? tag = some v)
    (voice : s.voice? v = some x) (ending : x.state = .releasing ∨ x.state = .stopping) (period : PeriodIndex)
    (offset : Nat) : s.takeRelease tag period offset = s := by
  rw [State.takeRelease, found]
  dsimp only
  rw [voice]
  exact if_pos ending

/-- R52, R53: the position of a release, and the event of a late one, before it is applied. -/
theorem State.takeRelease_applied {s : State} {tag : Tag} {v : Nat} {x : Voice} (found : s.findTag? tag = some v)
    (voice : s.voice? v = some x) (sounding : x.state = .pending ∨ x.state = .playing) (period : PeriodIndex)
    (offset : Nat) : s.takeRelease tag period offset =
      match s.releaseLate period with
      | none => s.applyRelease v x (releasePosition s.config.period x period offset)
      | some q => (s.raise (.lateRelease tag period q)).applyRelease v x (horizonPosition s.config.period x q) := by
  rw [State.takeRelease, found]
  dsimp only
  rw [voice]
  refine if_neg ?_
  rcases sounding with is | is <;> rw [is] <;> decide

/-- R54: what a release at a position leaves, with these reports before it is applied: the voice CANCELLED, or its
pending release point set. -/
def State.ReleaseLeaves (s : State) (rest : List VoiceItem) (v : Nat) (x : Voice) (report : Report) (position : Int)
    (outcome : Host.Outcome State Fault Refusal) : Prop :=
  (x.state = .pending ∧ position ≤ 0 →
    ∃ u : State, outcome = .next u.dispatch ∧ Ended s u v x ∧
      u.report = report.appendEnd (x.endRecord .cancelled x.emit) ∧ u.port = s.itemOff rest ∧ u.pass = s.pass) ∧
  (¬(x.state = .pending ∧ position ≤ 0) →
    outcome = .next (State.dispatch
      { s with port := s.itemOff rest, report := report,
               voices := Table.insert s.voices v { x with releasePoint := some position } }))

/-- R54: the end of a release, whatever its position. -/
theorem State.finishItem_applyRelease {s r : State} {rest : List VoiceItem} {v : Nat} {x : Voice}
    (before : (s.popItem rest).ChangesOnly r [.report]) (voice : s.voice? v = some x) (position : Int) :
    s.ReleaseLeaves rest v x r.report position (.next (r.applyRelease v x position).finishItem) := by
  refine ⟨fun cancels => ?_, fun stays => ?_⟩
  · have still : r.voice? v = some x := by
      rw [State.voice?, before.voices (by decide)]
      exact voice
    rw [State.applyRelease, if_pos cancels]
    obtain ⟨u, is, facts⟩ := State.finishItem_ended before (State.endVoice_settles still .cancelled)
    exact ⟨u, congrArg _ is, facts⟩
  · rw [State.applyRelease, if_neg stays, before.eq_setReport]
    rfl

/-- Settles O30: the tag's voice, its position by the horizon, and the position applied. -/
theorem release : Obligations.Release := by
  intro s tag period offset rest takes distinct
  have popped := s.popItem_changes rest
  refine ⟨fun absent => ?_, fun v x voice carries => ⟨fun ending => ?_, fun sounding report position how => ?_⟩⟩
  · have unknown : (s.popItem rest).findTag? tag = none := State.findTag?_eq_none (s := s.popItem rest) absent
    rw [exec_voiceRelease_of_takesItem takes, State.takeRelease_absent unknown, State.finishItem_raise_popItem]
  all_goals
    subst carries
    have found : (s.popItem rest).findTag? x.tag = some v := State.findTag?_eq_some (s := s.popItem rest) distinct voice
    have still : (s.popItem rest).voice? v = some x := voice
  · rw [exec_voiceRelease_of_takesItem takes, State.takeRelease_ignored found still ending]
    rfl
  · rw [exec_voiceRelease_of_takesItem takes, State.takeRelease_applied found still sounding]
    have late : (s.popItem rest).releaseLate period = s.releaseLate period := rfl
    rw [late, State.releaseLate]
    have onTime := State.finishItem_applyRelease (.refl (s.popItem rest) _) voice
    have tooLate (q : PeriodIndex) := State.finishItem_applyRelease
      ((s.popItem rest).setReport_changes (s.report.raise (.lateRelease x.tag period q))) voice
    cases horizon : s.cadence.horizon with
    | none =>
      rw [horizon] at how
      rcases how with none | ⟨-, rfl, rfl⟩
      · cases none
      · exact onTime _
    | some q =>
      rw [horizon] at how
      rcases how with ⟨before, rfl, rfl⟩ | ⟨after, rfl, rfl⟩
      · simp only [before, if_true]
        exact tooLate q _
      · simp only [after q rfl, Bool.false_eq_true, if_false]
        exact onTime _

/-! ### VOICE_STOP -/

/-- Settles O31: the tag's voice by its state. -/
theorem stop : Obligations.Stop := by
  intro s tag rest takes distinct
  refine ⟨fun absent => ?_, fun v x voice carries => ?_⟩
  · have unknown : (s.popItem rest).findTag? tag = none := State.findTag?_eq_none (s := s.popItem rest) absent
    rw [exec_voiceStop_of_takesItem takes, State.takeStop, unknown]
    rfl
  · subst carries
    have found : (s.popItem rest).findTag? x.tag = some v := State.findTag?_eq_some (s := s.popItem rest) distinct voice
    have still : (s.popItem rest).voice? v = some x := voice
    rw [exec_voiceStop_of_takesItem takes, State.takeStop, found]
    dsimp only
    rw [State.stopVoice, still]
    dsimp only
    refine ⟨fun stopping => ?_, fun sounding => ?_, fun pending => ?_⟩
    · rw [stopping]
      rfl
    · rcases sounding with is | is <;> rw [is] <;> rfl
    · rw [pending]
      obtain ⟨u, is, facts⟩ := State.finishItem_ended (.refl (s.popItem rest) _) (State.endVoice_settles still .cancelled)
      exact ⟨u, congrArg _ is, facts⟩

/-! ### STOP_ALL -/

/-- R55, R56: what a stop makes of a voice. -/
def stoppedVoice (x : Voice) : Option Voice :=
  match x.state with
  | .pending => none
  | .playing => some (stoppedRecord x)
  | .releasing => some (stoppedRecord x)
  | .stopping => some x

theorem State.stopVoice_settles (s : State) (v : Nat) (x : Voice) (voice : s.voice? v = some x) :
    s.Settles (s.stopVoice v) .cancelled v x (stoppedVoice x) := by
  rw [State.stopVoice, voice, stoppedVoice]
  dsimp only
  cases x.state with
  | pending => exact State.endVoice_settles voice .cancelled
  | playing => exact s.putVoice_settles v x _ _
  | releasing => exact s.putVoice_settles v x _ _
  | stopping => exact State.settles_self voice _

theorem endingRows_stoppedVoice (rows : Table Voice) :
    endingRows stoppedVoice rows = rows.filter fun row => row.2.state == .pending := by
  refine List.filter_congr fun row _ => ?_
  rw [stoppedVoice]
  cases row.2.state <;> rfl

/-- Settles O32: each record's stop, in index order. -/
theorem stopAll : Obligations.StopAll := by
  intro s rest takes rising
  have all : (s.popItem rest).SettlesAll (s.popItem rest).takeStopAll .cancelled stoppedVoice s.voices :=
    State.settlesAll_voices (s := s.popItem rest) State.stopVoice_settles rising
  have popped : s.SameRings (s.popItem rest) := ⟨rfl, rfl, rfl⟩
  have agree := (State.SameRings.foldl (fun (row : Nat × Voice) k => k.cancelRing row.1) _ popped).trans all.rings
  have entries := all.entries
  have report := all.report
  rw [endingRows_stoppedVoice] at agree entries report
  obtain ⟨articulations, zones, curves, matrices⟩ := all.tables
  refine ⟨(s.popItem rest).takeStopAll.setPort (s.itemOff rest), ?_, fun v => ?_, report, agree.slots, agree.lanes, entries,
    articulations, zones, curves, matrices, rfl, all.only.cadence (by decide), all.only.pass (by decide),
    all.only.config (by decide), all.only.nextOrder (by decide), all.only.headStore (by decide),
    all.only.ringStore (by decide), all.only.freeCount (by decide)⟩
  · rw [exec_stopAll_of_takesItem takes, State.finishItem_eq all.only (by decide) (by decide)]
  · refine (State.SettlesAll.voice? (s := s.popItem rest) all rising v).trans ?_
    show (s.voice? v).bind stoppedVoice = _
    cases s.voice? v with
    | none => rfl
    | some x => rfl

end Sys2Proof.Machine
end

section
/-! SUPPORT. Accepted starts (R44 to R50): the record, the count, the cursor, the prefill and the late start. -/

namespace Sys2Proof.Machine

/-! ### The allocation of a record -/

/-- R44: every record below the lowest FREE one is taken. -/
theorem Table.get?_below_firstFree {α : Type} {t : Table α} (rising : Table.Rising t) {n w : Nat} (least : n ≤ w)
    (below : w < Table.firstFree t n) : (Table.get? t w).isSome = true := by
  induction t generalizing n with
  | nil => exact absurd below (Nat.not_lt.mpr least)
  | cons row t ih =>
    obtain ⟨i, a⟩ := row
    obtain ⟨-, rises⟩ := List.pairwise_cons.mp rising
    rw [Table.firstFree] at below
    rw [Table.get?_cons]
    split at below
    case isTrue first =>
      split
      · rfl
      · exact ih rises (by omega) below
    case isFalse => exact absurd below (Nat.not_lt.mpr least)

theorem isBefore_self (a : BitVec 32) : isBefore a a = false := by
  simp [isBefore]

theorem isBefore_asymm {a b : BitVec 32} (h : isBefore a b = true) : isBefore b a = false := by
  simp only [isBefore, Bool.and_eq_true, decide_eq_true_eq, Bool.and_eq_false_iff, decide_eq_false_iff_not] at h ⊢
  bv_omega

/-- R45: the voice `best` is to be stolen before `row`. -/
def StolenBefore (best row : Nat × Voice) : Prop :=
  best.2.currentGain < row.2.currentGain ∨
    (best.2.currentGain = row.2.currentGain ∧ isBefore best.2.startOrder row.2.startOrder = true)

theorem betterVictim_left {best row : Nat × Voice} (h : StolenBefore best row) : betterVictim best row = best := by
  have notLower : ¬ row.2.currentGain < best.2.currentGain := by rcases h with lower | ⟨equal, -⟩ <;> omega
  rw [betterVictim, if_neg notLower, if_neg]
  rintro ⟨equal, earlier⟩
  rcases h with lower | ⟨-, first⟩
  · omega
  · rw [isBefore_asymm first] at earlier
    cases earlier

theorem betterVictim_right {best row : Nat × Voice} (h : StolenBefore row best) : betterVictim best row = row := by
  rw [betterVictim]
  rcases h with lower | ⟨equal, first⟩
  · exact if_pos lower
  · rw [if_neg (by omega), if_pos ⟨equal, first⟩]

theorem betterVictim_self (row : Nat × Voice) : betterVictim row row = row := by
  unfold betterVictim
  split
  · rfl
  · split <;> rfl

theorem betterVictim_mem (best row : Nat × Voice) : betterVictim best row = best ∨ betterVictim best row = row := by
  unfold betterVictim
  split
  · exact .inr rfl
  · split
    · exact .inr rfl
    · exact .inl rfl

/-- R45: of a list of candidates the one that is stolen before every other is chosen. -/
theorem foldl_betterVictim {victim : Nat × Voice} {rows : List (Nat × Voice)} {best : Nat × Voice}
    (listed : victim ∈ best :: rows) (first : ∀ row ∈ best :: rows, row ≠ victim → StolenBefore victim row) :
    rows.foldl betterVictim best = victim := by
  induction rows generalizing best with
  | nil => exact (List.mem_singleton.mp listed).symm
  | cons row rows ih =>
    obtain ⟨beatsBest, beatsRow, beatsRest⟩ :
        (best ≠ victim → StolenBefore victim best) ∧ (row ≠ victim → StolenBefore victim row) ∧
          ∀ r ∈ rows, r ≠ victim → StolenBefore victim r :=
      ⟨first best (by simp), first row (by simp), fun r mem => first r (by simp [mem])⟩
    rw [List.foldl_cons]
    have chosen : victim ∈ betterVictim best row :: rows := by
      by_cases isBest : best = victim
      · by_cases isRow : row = victim
        · rw [isBest, isRow, betterVictim_self]
          exact List.mem_cons_self ..
        · rw [isBest, betterVictim_left (beatsRow isRow)]
          exact List.mem_cons_self ..
      · by_cases isRow : row = victim
        · rw [isRow, betterVictim_right (beatsBest isBest)]
          exact List.mem_cons_self ..
        · refine List.mem_cons_of_mem _ ?_
          rcases List.mem_cons.mp listed with same | listed
          · exact absurd same.symm isBest
          rcases List.mem_cons.mp listed with same | listed
          · exact absurd same.symm isRow
          · exact listed
    refine ih chosen fun r mem other => ?_
    rcases List.mem_cons.mp mem with rfl | mem
    · rcases betterVictim_mem best row with is | is
      · rw [is] at other ⊢
        exact beatsBest other
      · rw [is] at other ⊢
        exact beatsRow other
    · exact beatsRest r mem other

/-- R45: the victim among the RELEASING and STOPPING voices. -/
theorem chooseVictim_eq_some {t : Table Voice} (rising : Table.Rising t) {v : Nat} {x : Voice}
    (listed : Table.get? t v = some x) (candidate : x.state = .releasing ∨ x.state = .stopping)
    (first : ∀ w y, Table.get? t w = some y → w ≠ v → (y.state = .releasing ∨ y.state = .stopping) →
      StolenBefore (v, x) (w, y)) : chooseVictim t = some (v, x) := by
  have isCandidate_iff (y : Voice) : isCandidate y = true ↔ y.state = .releasing ∨ y.state = .stopping := by
    rw [isCandidate, Bool.or_eq_true, beq_iff_eq, beq_iff_eq]
  have among : (v, x) ∈ t.filter fun row => isCandidate row.2 :=
    List.mem_filter.mpr ⟨Table.mem_of_get? listed, (isCandidate_iff x).mpr candidate⟩
  have beats : ∀ row ∈ t.filter (fun row => isCandidate row.2), row ≠ (v, x) → StolenBefore (v, x) row := by
    rintro ⟨w, y⟩ mem other
    obtain ⟨mem, is⟩ := List.mem_filter.mp mem
    have at_ := Table.get?_of_mem rising mem
    refine first w y at_ (fun same => ?_) ((isCandidate_iff y).mp is)
    subst same
    obtain rfl := Option.some.inj (at_.symm.trans listed)
    exact other rfl
  unfold chooseVictim
  cases rows : t.filter fun row => isCandidate row.2 with
  | nil =>
    rw [rows] at among
    cases among
  | cons row rest =>
    rw [rows] at among beats
    exact congrArg some (foldl_betterVictim among beats)

/-! ### The prefill on a lane that is not OFFLINE -/

/-- R73: a chunk asked of a lane that is not OFFLINE raises nothing. -/
theorem State.requestChunk_changes {s : State} {e : SampleEntry} (online : (s.lane e.lane).state ≠ .offline) (v : Nat)
    (x : Voice) (k : Nat) : s.ChangesOnly (s.requestChunk v x e k) [.slots, .lanes] := by
  have put (j : Nat) (slot : Slot) : s.ChangesOnly (s.putSlot v j slot) [.slots, .lanes] :=
    (s.setSlots_changes _).wider (by decide)
  unfold State.requestChunk
  split
  · unfold State.setUpChunk
    rw [if_neg online]
    refine (put _ _).trans (State.foldl_changes _ (fun t n => ?_) _ _)
    exact (t.setLanes_changes _).wider (by decide)
  · split
    · exact put _ _
    · exact .refl s _

theorem State.prefillFrom_changes {v : Nat} {x : Voice} {e : SampleEntry} (n k : Nat) {s : State}
    (online : (s.lane e.lane).state ≠ .offline) : s.ChangesOnly (State.prefillFrom v x e n k s) [.slots, .lanes] := by
  induction n generalizing k s with
  | zero => exact .refl s _
  | succ n ih =>
    rw [State.prefillFrom]
    split
    · exact .refl s _
    · have still : ((s.requestChunk v x e k).lane e.lane).state ≠ .offline := by
        rw [(s.requestChunk_lanesOnly v x e k).state (by decide)]
        exact online
      exact (State.requestChunk_changes online v x k).trans (ih (k + 1) still)

/-! ### An accepted start -/

/-- R50: what a start leaves of its voice and of the reports, by the render horizon. -/
def State.StartedLate (s u : State) (v : Nat) (x : Voice) : Prop :=
  match s.cadence.horizon with
  | none => u.voice? v = some x ∧ u.report = s.report
  | some q =>
    if isBefore x.startPeriod q then
      u.voice? v = some { x with startPeriod := q, late := true } ∧
        u.report = s.report.raise (.lateStart x.tag x.startPeriod q)
    else u.voice? v = some x ∧ u.report = s.report

/-- R48 to R50: what a start accepted into record `v` leaves of `s`. -/
structure State.Started (s u : State) (v : Nat) (x : Voice) (e : SampleEntry) (articulation : Nat) : Prop where
  voice         : s.StartedLate u v x
  others        : ∀ w, w ≠ v → u.voice? w = s.voice? w
  order         : u.nextOrder = s.nextOrder + 1
  entries       : ∀ g, u.entry? g =
    if g = x.handle then (s.entry? g).map fun f => { f with refCount := f.refCount + 1 } else s.entry? g
  articulations : ∀ i, u.articulation i = cursorAdvanced s articulation i
  rings         : (startedRings s v x e).SameRings u
  zones         : u.library.zones = s.library.zones
  curves        : u.library.curves = s.library.curves
  matrices      : u.library.matrices = s.library.matrices
  only          : s.ChangesOnly u [.report, .library, .voices, .nextOrder, .slots, .lanes]

/-- R27: the articulations with the cursor of one advanced. -/
theorem State.putArticulation_advance (s : State) (articulation i : Nat) :
    (s.putArticulation articulation (s.articulation articulation).advance).articulation i =
      cursorAdvanced s articulation i := by
  rw [State.putArticulation, State.articulation, State.setLibrary_library, Table.getD_put, cursorAdvanced]
  by_cases same : i = articulation
  · subst same
    rw [if_pos rfl, Articulation.advance]
    simp only [true_and]
  · rw [if_neg same]
    exact (if_neg fun both => same both.1).symm

/-- R48, R49: the state before the prefill of an accepted start. -/
def State.startCounted (s : State) (v : Nat) (x : Voice) (articulation : Nat) : State :=
  (((s.putVoice v x).countVoice x.handle).setNextOrder (s.nextOrder + 1)).putArticulation articulation
    (s.articulation articulation).advance

theorem State.acceptStart_eq (s : State) (v : Nat) (e : SampleEntry) (x : Voice) (articulation : Nat) :
    s.acceptStart v e x articulation =
      match s.cadence.horizon with
      | none => (s.startCounted v x articulation).prefill v x e
      | some q => ((s.startCounted v x articulation).prefill v x e).judgeLate v q := rfl

theorem State.startCounted_changes (s : State) (v : Nat) (x : Voice) (articulation : Nat) :
    s.ChangesOnly (s.startCounted v x articulation) [.library, .voices, .nextOrder] :=
  ((((s.setVoices_changes _).wider (by decide)).trans ((State.countVoice_changes _ x.handle).wider (by decide))).trans
    ((State.setNextOrder_changes _ _).wider (by decide))).trans ((State.setLibrary_changes _ _).wider (by decide))

theorem State.startCounted_voice? (s : State) (v w : Nat) (x : Voice) (articulation : Nat) :
    (s.startCounted v x articulation).voice? w = if w = v then some x else s.voice? w := by
  show ((s.putVoice v x).countVoice x.handle).voice? w = _
  rw [State.voice?, ((s.putVoice v x).countVoice_changes x.handle).voices (by decide)]
  exact s.putVoice_voice? v w x

theorem State.startCounted_entry? (s : State) (v : Nat) (x : Voice) (articulation g : Nat) :
    (s.startCounted v x articulation).entry? g =
      if g = x.handle then (s.entry? g).map fun f => { f with refCount := f.refCount + 1 } else s.entry? g :=
  (s.putVoice v x).countVoice_entry? x.handle g

theorem State.startCounted_articulation (s : State) (v : Nat) (x : Voice) (articulation i : Nat) :
    (s.startCounted v x articulation).articulation i = cursorAdvanced s articulation i := by
  obtain ⟨articulations, -⟩ := (s.putVoice v x).countVoice_sameTables x.handle
  have same (j : Nat) : (((s.putVoice v x).countVoice x.handle).setNextOrder (s.nextOrder + 1)).articulation j =
      s.articulation j := by
    rw [State.articulation, State.articulation]
    exact congrArg (fun t => Table.getD t j Articulation.initial) articulations
  rw [State.startCounted, ← same articulation, State.putArticulation_advance, cursorAdvanced, cursorAdvanced]
  simp only [same]

/-- R50, R72: the voice of record `v`, PENDING, judged against the horizon. -/
theorem State.judgeLate_pending {s : State} {v : Nat} {x : Voice} (voice : s.voice? v = some x)
    (pending : x.state = .pending) (q : PeriodIndex) :
    s.judgeLate v q = if isBefore x.startPeriod q then s.makeLate v x q else s := by
  rw [State.judgeLate, voice]
  simp only [pending, true_and]

theorem State.makeLate_rings (s : State) (v : Nat) (x : Voice) (q : PeriodIndex) :
    (s.shiftDeadlines v (q - x.startPeriod)).SameRings (s.makeLate v x q) := by
  have begun : s.SameRings ((s.putVoice v { x with startPeriod := q, late := true }).raise
      (.lateStart x.tag x.startPeriod q)) := ⟨rfl, rfl, rfl⟩
  rw [State.makeLate]
  exact begun.shiftDeadlines v _

theorem State.makeLate_changes (s : State) (v : Nat) (x : Voice) (q : PeriodIndex) :
    ((s.putVoice v { x with startPeriod := q, late := true }).raise (.lateStart x.tag x.startPeriod q)).ChangesOnly
      (s.makeLate v x q) [.slots, .lanes] :=
  (State.shiftDeadlines_goes _ v (q - x.startPeriod)).only

/-- R50: the late start of one voice, the rings apart. -/
theorem State.makeLate_leaves (s : State) (v : Nat) (x : Voice) (q : PeriodIndex) :
    (∀ w, (s.makeLate v x q).voice? w = if w = v then some { x with startPeriod := q, late := true } else s.voice? w) ∧
      (s.makeLate v x q).report = s.report.raise (.lateStart x.tag x.startPeriod q) ∧
      s.ChangesOnly (s.makeLate v x q) [.report, .voices, .slots, .lanes] := by
  have only := s.makeLate_changes v x q
  have begun : s.ChangesOnly ((s.putVoice v { x with startPeriod := q, late := true }).raise
      (.lateStart x.tag x.startPeriod q)) [.report, .voices] :=
    ((s.setVoices_changes _).wider (by decide)).trans ((State.setReport_changes _ _).wider (by decide))
  refine ⟨fun w => ?_, only.report (by decide), (begun.wider (by decide)).trans (only.wider (by decide))⟩
  rw [State.voice?, only.voices (by decide)]
  exact s.putVoice_voice? v w _

/-- R48 to R50: a start accepted into record `v`, on a lane that is not OFFLINE. -/
theorem State.acceptStart_started {s : State} {e : SampleEntry} (online : (s.lane e.lane).state ≠ .offline) (v : Nat)
    {x : Voice} (pending : x.state = .pending) (articulation : Nat) :
    s.Started (s.acceptStart v e x articulation) v x e articulation := by
  have counted := s.startCounted_changes v x articulation
  have agree : s.SameRings (s.startCounted v x articulation) :=
    counted.sameRings (by decide) (by decide) (by decide)
  have filled : (s.startCounted v x articulation).ChangesOnly ((s.startCounted v x articulation).prefill v x e)
      [.slots, .lanes] := State.prefillFrom_changes _ _ (by rw [agree.lane]; exact online)
  have voices (w : Nat) : ((s.startCounted v x articulation).prefill v x e).voice? w =
      if w = v then some x else s.voice? w := by
    rw [State.voice?, filled.voices (by decide)]
    exact s.startCounted_voice? v w x articulation
  have library : ((s.startCounted v x articulation).prefill v x e).library = (s.startCounted v x articulation).library :=
    filled.library (by decide)
  have report : ((s.startCounted v x articulation).prefill v x e).report = s.report :=
    (filled.report (by decide)).trans (counted.report (by decide))
  have order : ((s.startCounted v x articulation).prefill v x e).nextOrder = s.nextOrder + 1 :=
    filled.nextOrder (by decide)
  have rings : (s.prefill v x e).SameRings ((s.startCounted v x articulation).prefill v x e) := agree.prefill v x e
  have only : s.ChangesOnly ((s.startCounted v x articulation).prefill v x e)
      [.report, .library, .voices, .nextOrder, .slots, .lanes] :=
    (counted.wider (by decide)).trans (filled.wider (by decide))
  obtain ⟨-, zones, curves, matrices⟩ := (s.putVoice v x).countVoice_sameTables x.handle
  -- what neither the horizon nor a late start changes
  have common {u : State} (sameLibrary : u.library = ((s.startCounted v x articulation).prefill v x e).library) :
      (∀ g, u.entry? g =
        if g = x.handle then (s.entry? g).map fun f => { f with refCount := f.refCount + 1 } else s.entry? g) ∧
      (∀ i, u.articulation i = cursorAdvanced s articulation i) ∧ u.library.zones = s.library.zones ∧
      u.library.curves = s.library.curves ∧ u.library.matrices = s.library.matrices := by
    refine ⟨fun g => ?_, fun i => ?_, ?_, ?_, ?_⟩
    · rw [← s.startCounted_entry? v x articulation g]
      exact State.entry?_congr (congrArg Library.samples (sameLibrary.trans library)) g
    · rw [← s.startCounted_articulation v x articulation i, State.articulation, State.articulation,
        sameLibrary.trans library]
    · exact (congrArg Library.zones (sameLibrary.trans library)).trans zones
    · exact (congrArg Library.curves (sameLibrary.trans library)).trans curves
    · exact (congrArg Library.matrices (sameLibrary.trans library)).trans matrices
  have onTime (is : s.StartedLate ((s.startCounted v x articulation).prefill v x e) v x)
      (begun : (startedRings s v x e).SameRings ((s.startCounted v x articulation).prefill v x e)) :
      s.Started ((s.startCounted v x articulation).prefill v x e) v x e articulation := by
    obtain ⟨entries, articulations, sameZones, sameCurves, sameMatrices⟩ := common rfl
    refine ⟨is, fun w other => ?_, order, entries, articulations, begun, sameZones, sameCurves, sameMatrices, only⟩
    rw [voices, if_neg other]
  rw [State.acceptStart_eq]
  cases horizon : s.cadence.horizon with
  | none =>
    refine onTime ?_ ?_
    · rw [State.StartedLate, horizon]
      exact ⟨(voices v).trans (if_pos rfl), report⟩
    · rw [startedRings, horizon]
      exact rings
  | some q =>
    dsimp only
    rw [State.judgeLate_pending ((voices v).trans (if_pos rfl)) pending]
    by_cases late : isBefore x.startPeriod q = true
    · rw [if_pos late]
      obtain ⟨lateVoices, lateReport, lateOnly⟩ :=
        ((s.startCounted v x articulation).prefill v x e).makeLate_leaves v x q
      obtain ⟨entries, articulations, sameZones, sameCurves, sameMatrices⟩ := common (lateOnly.library (by decide))
      refine ⟨?_, fun w other => ?_, (lateOnly.nextOrder (by decide)).trans order, entries, articulations, ?_, sameZones,
        sameCurves, sameMatrices, only.trans (lateOnly.wider (by decide))⟩
      · rw [State.StartedLate, horizon]
        dsimp only
        rw [if_pos late, ← report]
        exact ⟨(lateVoices v).trans (if_pos rfl), lateReport⟩
      · rw [lateVoices, if_neg other, voices, if_neg other]
      · rw [startedRings, horizon]
        dsimp only
        rw [if_pos late]
        exact (rings.shiftDeadlines v _).trans (State.makeLate_rings _ v x q)
    · rw [if_neg late]
      refine onTime ?_ ?_
      · rw [State.StartedLate, horizon]
        dsimp only
        rw [if_neg late]
        exact ⟨(voices v).trans (if_pos rfl), report⟩
      · rw [startedRings, horizon]
        dsimp only
        rw [if_neg late]
        exact rings

/-- R49, R74: a start's rings by the slots, the lanes, the configuration and the horizon. -/
theorem startedRings_sameRings {s t : State} (agree : s.SameRings t) (horizon : t.cadence.horizon = s.cadence.horizon)
    (v : Nat) (x : Voice) (e : SampleEntry) : (startedRings s v x e).SameRings (startedRings t v x e) := by
  unfold startedRings
  rw [horizon]
  split
  · exact agree.prefill v x e
  · split
    · exact (agree.prefill v x e).shiftDeadlines v _
    · exact agree.prefill v x e

/-- R48: the record of a start by the tables, the configuration and the start-order counter. -/
theorem State.newVoice_eq {s t : State} (same : s.SameTables t) (config : t.config = s.config)
    (order : t.nextOrder = s.nextOrder) (e : SampleEntry) (tag : Tag) (articulation z velocity : Nat)
    (period : PeriodIndex) (offset source : Nat) :
    t.newVoice e tag articulation z velocity period offset source =
      startRecord s e tag articulation z velocity period offset source := by
  obtain ⟨articulations, zones, curves, -⟩ := same
  rw [State.newVoice, startRecord]
  simp only [State.zone, State.articulation, State.zoneGain, State.curve, articulations, zones, curves, config, order]
  rfl

/-- R41: a start's effects, once its item is off and it has been carried out. -/
theorem State.Started.finishItem {s t u : State} {rest : List VoiceItem} {v : Nat} {x : Voice} {e : SampleEntry}
    {articulation : Nat} {ps : List Part} (before : (s.popItem rest).ChangesOnly t ps) (port : Part.port ∉ ps)
    (cadence : Part.cadence ∉ ps) (h : t.Started u v x e articulation) :
    u.finishItem = (u.setPort (s.itemOff rest)).dispatch := by
  rw [State.finishItem, h.only.port (by decide), h.only.cadence (by decide), before.port port, before.cadence cadence]
  rfl

/-- Settles O28: the lowest FREE record takes the start. -/
theorem startAccepted : Obligations.StartAccepted := by
  intro s tag articulation note velocity period offset source rest z e takes rising absent zone entry ready online room
  have passed := State.takeStart_passed (s := s.popItem rest) absent zone entry ready online period offset source
  have accepted : (s.popItem rest).allocateStart e tag articulation z velocity period offset source =
      (s.popItem rest).acceptStart (Table.firstFree s.voices 0) e
        (startRecord s e tag articulation z velocity period offset source) articulation := if_pos room
  have started := State.acceptStart_started (s := s.popItem rest) online (Table.firstFree s.voices 0)
    (x := startRecord s e tag articulation z velocity period offset source) rfl articulation
  rw [← accepted] at started
  dsimp only
  refine ⟨((s.popItem rest).allocateStart e tag articulation z velocity period offset source).setPort (s.itemOff rest),
    Table.firstFree s.voices 0, ?_, ⟨State.firstFree_voice? rising, fun w below => ?_⟩, started.others, ?_, started.order,
    fun g => ?_, started.articulations, ?_, ?_, rfl, started.zones, started.curves, started.matrices,
    started.only.cadence (by decide), started.only.pass (by decide), started.only.config (by decide),
    started.only.headStore (by decide), started.only.ringStore (by decide), started.only.freeCount (by decide)⟩
  · rw [exec_voiceStart_of_takesItem takes, passed, started.finishItem (.refl _ []) (by decide) (by decide)]
  · exact Table.get?_below_firstFree rising (Nat.zero_le w) below
  · exact started.voice
  · refine (started.entries g).trans ?_
    show (if g = (s.zone z).handle then _ else _) = _
    split
    case isTrue same =>
      show (s.entry? g).map _ = _
      rw [same, entry, Option.map_some]
    case isFalse => rfl
  · exact ((startedRings_sameRings (s := s) (t := s.popItem rest) ⟨rfl, rfl, rfl⟩ rfl _ _ e).trans started.rings).slots
  · exact ((startedRings_sameRings (s := s) (t := s.popItem rest) ⟨rfl, rfl, rfl⟩ rfl _ _ e).trans started.rings).lanes

/-- R45, R46: the state that a steal leaves to the start that takes the record. -/
def State.stolenFrom (s : State) (v : Nat) (victim : Voice) (tag : Tag) : State :=
  (s.endVoice v .stolen).raise (.voiceStolen victim.tag tag)

theorem State.allocateStart_steals {s : State} {v : Nat} {victim : Voice} (full : s.config.voiceLimit ≤ s.voices.length)
    (chosen : chooseVictim s.voices = some (v, victim)) (e : SampleEntry) (tag : Tag) (articulation zone velocity : Nat)
    (period : PeriodIndex) (offset source : Nat) :
    s.allocateStart e tag articulation zone velocity period offset source =
      (s.stolenFrom v victim tag).acceptStart v e
        ((s.stolenFrom v victim tag).newVoice e tag articulation zone velocity period offset source) articulation := by
  rw [State.allocateStart, if_neg (Nat.not_lt.mpr full), chosen]
  rfl

/-- Settles O29: the victim's end, then the start into its record. -/
theorem startSteals : Obligations.StartSteals := by
  intro s tag articulation note velocity period offset source rest z e v victim takes rising absent zone entry ready
    online full voice candidate first
  have chosen : chooseVictim (s.popItem rest).voices = some (v, victim) := chooseVictim_eq_some rising voice candidate first
  have ends : (s.popItem rest).Settles ((s.popItem rest).endVoice v .stolen) .stolen v victim none :=
    State.endVoice_settles (s := s.popItem rest) voice .stolen
  generalize stolen : (s.popItem rest).stolenFrom v victim tag = t
  have told : ((s.popItem rest).endVoice v .stolen).ChangesOnly t [.report] := by
    rw [← stolen]
    exact State.setReport_changes _ _
  have only : (s.popItem rest).ChangesOnly t [.report, .library, .voices, .slots, .lanes] :=
    ends.only.trans (told.wider (by decide))
  have tables : s.SameTables t := State.SameTables.trans (t := (s.popItem rest).endVoice v .stolen) ends.tables
    (.of_library (told.library (by decide)))
  have record : t.newVoice e tag articulation z velocity period offset source =
      startRecord s e tag articulation z velocity period offset source :=
    State.newVoice_eq tables (only.config (by decide)) (only.nextOrder (by decide)) _ _ _ _ _ _ _ _
  have agree : (s.cancelRing v).SameRings t := by
    have popped : s.SameRings (s.popItem rest) := ⟨rfl, rfl, rfl⟩
    have ringed := ends.rings
    rw [if_pos rfl] at ringed
    exact ((popped.cancelRing v).trans ringed).trans (told.sameRings (by decide) (by decide) (by decide))
  have stillOnline : (t.lane e.lane).state ≠ .offline := by
    rw [agree.lane, (s.cancelRing_lanesOnly v).state (by decide)]
    exact online
  have horizon : t.cadence.horizon = s.cadence.horizon := congrArg Cadence.horizon (only.cadence (by decide))
  have report : t.report = (s.report.appendEnd (victim.endRecord .stolen victim.emit)).raise
      (.voiceStolen victim.tag tag) := by
    rw [← stolen]
    exact congrArg (fun r => Report.raise r _) (ends.report.trans (if_pos rfl))
  have started := State.acceptStart_started stillOnline v
    (x := startRecord s e tag articulation z velocity period offset source) rfl articulation
  have is : exec .voiceStart s = .next (t.acceptStart v e
      (startRecord s e tag articulation z velocity period offset source) articulation).finishItem := by
    rw [exec_voiceStart_of_takesItem takes,
      State.takeStart_passed (s := s.popItem rest) absent zone entry ready online period offset source,
      State.allocateStart_steals (s := s.popItem rest) full chosen, stolen, record]
  obtain ⟨articulations, zones, curves, matrices⟩ := tables
  have rings := (startedRings_sameRings agree (by
    rw [horizon]
    exact congrArg Cadence.horizon ((s.cancelRing_changes v).cadence (by decide)).symm) v
    (startRecord s e tag articulation z velocity period offset source) e).trans started.rings
  dsimp only
  refine ⟨(t.acceptStart v e (startRecord s e tag articulation z velocity period offset source) articulation).setPort
      (s.itemOff rest), ?_, ?_, fun w other => ?_, ?_, fun g => ?_, fun i => ?_, rings.slots, rings.lanes, rfl,
    started.zones.trans zones, started.curves.trans curves, started.matrices.trans matrices,
    (started.only.cadence (by decide)).trans (only.cadence (by decide)),
    (started.only.pass (by decide)).trans (only.pass (by decide)),
    (started.only.config (by decide)).trans (only.config (by decide)),
    (started.only.headStore (by decide)).trans (only.headStore (by decide)),
    (started.only.ringStore (by decide)).trans (only.ringStore (by decide)),
    (started.only.freeCount (by decide)).trans (only.freeCount (by decide))⟩
  · rw [is, started.finishItem only (by decide) (by decide)]
  · have late := started.voice
    rw [State.StartedLate, horizon, report] at late
    exact late
  · refine (started.others w other).trans ?_
    rw [State.voice?, told.voices (by decide)]
    exact ends.others w other
  · refine started.order.trans ?_
    rw [only.nextOrder (by decide)]
    rfl
  · refine (started.entries g).trans ?_
    have left : t.entry? g = if g = victim.handle then (s.entry? g).bind uncounted else s.entry? g := by
      rw [State.entry?_congr (congrArg Library.samples (told.library (by decide)))]
      refine (ends.entries g).trans ?_
      simp only [true_and]
      rfl
    rw [left]
    rfl
  · refine (started.articulations i).trans ?_
    rw [cursorAdvanced, cursorAdvanced]
    simp only [State.articulation, articulations]
    rfl

end Sys2Proof.Machine
end

section
/-! SUPPORT. The cadence tracker, event by event: what it takes, what it leaves, and the reports of a tick error. -/

namespace Sys2Proof.Machine

/-! ### Taking an event -/

/-- The tracker at a tick: the clock `elapsed` frames later, and the tick off the list of those handed on. -/
def State.tickReady (s : State) (elapsed : Nat) (rest : List HandedTick) : State :=
  { s with port := { s.port with handed := rest }, cadence := { s.cadence with clock := s.cadence.later elapsed } }

/-- R104: the tracker with its local clock at a time. -/
theorem State.passTime_setPort (s : State) (elapsed : Nat) (rest : List HandedTick) :
    (s.passTime elapsed).setPort { s.port with handed := rest } = s.tickReady elapsed rest := rfl

/-- R111 to R113: no expiry comes before a tick that is next. -/
theorem State.TickNext.expiresBefore {s : State} {n : PeriodIndex} {arrival : Nat} {rest : List HandedTick}
    (h : s.TickNext n arrival rest) : s.cadence.expiresBefore arrival = false := by
  obtain ⟨-, first⟩ := h
  unfold Cadence.expiresBefore
  split
  · rfl
  case h_2 expiry timer =>
    rcases first expiry timer with later | ⟨same, state⟩
    · rw [decide_eq_false (by omega), decide_eq_false (by omega)]
      rfl
    · rw [decide_eq_false (by omega), beq_false_of_ne state, Bool.and_false]
      rfl

theorem exec_tick_held {s : State} {p : Pass} {n : PeriodIndex} {arrival : Nat} {rest : List HandedTick}
    (pass : s.pass = some p) (next : s.TickNext n arrival rest) (elapsed : Nat) :
    exec (.tick elapsed) s = .next ((s.tickReady elapsed rest).holdTick n arrival) := by
  have first := next.expiresBefore
  obtain ⟨handed, -⟩ := next
  show execTick elapsed s = _
  rw [execTick, handed]
  simp only [first, Bool.false_eq_true, if_false, State.passTime_setPort]
  exact if_pos (by
    show s.pass.isSome = true
    rw [pass]
    rfl)

/-- R105, R172: the tick that the tracker takes, and the pass that it opens. -/
theorem exec_tick_taken {s : State} {n : PeriodIndex} {arrival : Nat} {rest : List HandedTick}
    (takes : s.TakesTick n arrival rest) (elapsed : Nat) :
    exec (.tick elapsed) s =
      .next ((s.tickReady elapsed rest).readBefore fun u => (u.judgeTick n arrival).afterEvent).dispatch := by
  obtain ⟨noPass, next, -⟩ := takes
  have first := next.expiresBefore
  obtain ⟨handed, -⟩ := next
  show execTick elapsed s = _
  rw [execTick, handed]
  simp only [first, Bool.false_eq_true, if_false, State.passTime_setPort]
  refine if_neg ?_
  show ¬ s.pass.isSome = true
  rw [noPass]
  nofun

/-- R172: an event that opens no pass leaves the reading of a QUERY_STATUS where it is. -/
theorem State.readBefore_unopened {s : State} {take : State → State} (h : (take s).pass = none) :
    s.readBefore take = take s := by
  refine if_neg ?_
  rw [State.passUnderWay, h]
  nofun

theorem State.readBefore_noneRead {s : State} (h : s.NoneRead) (take : State → State) : s.readBefore take = take s :=
  State.readBefore_none (Report.reading?_none.mpr h) take

theorem State.afterEvent_opened {s : State} {p : Pass} (pass : s.pass = some p) : s.afterEvent = s.beginPass p.period := by
  rw [State.afterEvent, pass]

theorem State.afterEvent_unopened {s : State} (pass : s.pass = none) : s.afterEvent = s.actOnLimit := by
  rw [State.afterEvent, pass]

theorem State.actOnLimit_of_not_due {s : State} (due : s.cadence.limitDue = false) : s.actOnLimit = s :=
  if_neg (by rw [due]; nofun)

theorem State.actOnLimit_of_due {s : State} (due : s.cadence.limitDue = true) : s.actOnLimit = s.limitAction :=
  if_pos due

theorem State.trackerConfig_eq {s : State} (unheld : s.cadence.heldConfig = none) : s.trackerConfig = s.config := by
  rw [State.trackerConfig, unheld]

theorem State.trackerConfig_getD (s : State) : s.trackerConfig = s.cadence.heldConfig.getD s.config := by
  rw [State.trackerConfig]
  cases s.cadence.heldConfig <;> rfl

/-! ### Errors and openings -/

theorem dropExpiry_eq (w : List Waiting) : dropExpiry w = ticksAlone w := by
  refine List.filter_congr fun i _ => ?_
  cases i <;> rfl

theorem waitingTicks_eq (w : List Waiting) : waitingTicks w = (ticksAlone w).length := by
  rw [← dropExpiry_eq]
  rfl

/-- R116, R118: a tick error in both windows. -/
theorem Cadence.countError_countSevere (c : Cadence) (limit : Nat) :
    (c.countError limit).countSevere = errorCounted c limit := by
  rw [errorCounted, Cadence.countSevere, Cadence.countError]
  simp only [beq_eq_decide]
  rfl

/-- R116, R118: a tick error with no render horizon, which has no expected index to tell. -/
theorem State.tickError_unlocked {s : State} (horizon : s.cadence.horizon = none) :
    s.tickError = s.setCadence (errorCounted s.cadence s.trackerConfig.errorLimit) := by
  rw [State.tickError, Cadence.countError_countSevere, horizon]

/-- R116, R118: a tick error, and CADENCE_SEVERE when it is the second of a severe window. -/
theorem State.tickError_running {s : State} {q : PeriodIndex} (horizon : s.cadence.horizon = some q) :
    s.tickError = { s with cadence := errorCounted s.cadence s.trackerConfig.errorLimit,
                           report := severeTold s (q - BitVec.ofNat 32 s.trackerConfig.lead) } := by
  rw [State.tickError, Cadence.countError_countSevere, horizon]
  dsimp only
  have raised : ((errorCounted s.cadence s.trackerConfig.errorLimit).severeRaised && !s.cadence.severeRaised) = true ↔
      s.cadence.severeCount + 1 = 2 ∧ s.cadence.severeRaised = false := by
    cases mark : s.cadence.severeRaised <;> simp [errorCounted, mark]
  by_cases second : s.cadence.severeCount + 1 = 2 ∧ s.cadence.severeRaised = false
  · rw [if_pos (raised.mpr second), severeTold, if_pos second]
    rfl
  · rw [if_neg (fun h => second (raised.mp h)), severeTold, if_neg second]
    rfl

/-- R116, R118: a tick error, with an expected index to tell or without. -/
theorem State.tickError_eq (s : State) :
    s.tickError = { s with cadence := errorCounted s.cadence s.trackerConfig.errorLimit,
                           report := match s.cadence.horizon with
                             | none => s.report
                             | some q => severeTold s (q - BitVec.ofNat 32 s.trackerConfig.lead) } := by
  cases horizon : s.cadence.horizon with
  | none => exact State.tickError_unlocked horizon
  | some q => exact State.tickError_running horizon

/-- R116, R118: an opening in both windows. -/
theorem Cadence.countOpening_eq (c : Cadence) (errorWindow : Nat) :
    c.countOpening errorWindow =
      { c with errorOpenings := if errorWindow ≤ c.errorOpenings + 1 then 0 else c.errorOpenings + 1
               errorCount := if errorWindow ≤ c.errorOpenings + 1 then 0 else c.errorCount
               severeOpenings := if 8 ≤ c.severeOpenings + 1 then 0 else c.severeOpenings + 1
               severeCount := if 8 ≤ c.severeOpenings + 1 then 0 else c.severeCount
               severeRaised := if 8 ≤ c.severeOpenings + 1 then false else c.severeRaised } := by
  unfold Cadence.countOpening
  by_cases error : errorWindow ≤ c.errorOpenings + 1 <;> by_cases severe : 8 ≤ c.severeOpenings + 1 <;>
    simp only [error, severe, if_true, if_false]

/-- R106, R112: the tracker and the pass when one is opened. -/
theorem State.openPass_eq (s : State) (q : PeriodIndex) (wait : Nat) :
    s.openPass q wait = { s with cadence := passOpened s.cadence s.trackerConfig.errorWindow s.cadence.clock wait,
                                 pass := some ⟨q, 0, [], 0⟩ } := by
  rw [State.openPass, Cadence.countOpening_eq, passOpened, ← dropExpiry_eq]
  rfl

/-! ### SEARCH, LOST, and the waiting list -/

/-- R107, R115: a tick in SEARCH or LOST. -/
theorem State.judgeTick_searching {s : State} (state : s.cadence.state = .search ∨ s.cadence.state = .lost)
    (n : PeriodIndex) (arrival : Nat) :
    s.judgeTick n arrival = (s.setCadence { s.cadence with lastTick := some n }).becomeCandidate n arrival := by
  rw [State.judgeTick]
  rcases state with is | is <;> rw [is]

/-- Settles O34: the tick becomes the candidate. -/
theorem searchTick : Obligations.SearchTick := by
  intro s n arrival rest elapsed takes state
  have judged : (s.tickReady elapsed rest).judgeTick n arrival =
      { s with port := { s.port with handed := rest },
               cadence := { s.cadence with clock := s.cadence.later elapsed, lastTick := some n, state := .candidate,
                                           candidate := some { index := n, arrival := arrival } },
               report := s.report.raise
                 (.cadenceState s.cadence.state s.cadence.misaligned .candidate s.cadence.misaligned) } :=
    State.judgeTick_searching (s := s.tickReady elapsed rest) state n arrival
  rw [exec_tick_taken takes]
  obtain ⟨noPass, -, -, notDue⟩ := takes
  have unopened : ((s.tickReady elapsed rest).judgeTick n arrival).pass = none := by rw [judged]; exact noPass
  have still : ((s.tickReady elapsed rest).judgeTick n arrival).cadence.limitDue = false := by rw [judged]; exact notDue
  have taken := (State.afterEvent_unopened unopened).trans (State.actOnLimit_of_not_due still)
  rw [State.readBefore_unopened (by rw [taken]; exact unopened), taken, judged]

/-- Settles O38: the tick waits, or is dropped and counted. -/
theorem tickWaits : Obligations.TickWaits := by
  refine ⟨fun s n arrival rest elapsed expiry handed timer before => ?_, fun s p n arrival rest elapsed pass next => ?_⟩
  · have expires : s.cadence.expiresBefore arrival = true := by
      rw [Cadence.expiresBefore, timer]
      rcases before with earlier | ⟨same, state⟩
      · simp only [decide_eq_true earlier, Bool.true_or]
      · simp [same, state]
    show execTick elapsed s = _
    rw [execTick, handed]
    exact if_pos expires
  · dsimp only
    rw [exec_tick_held pass next, ← waitingTicks_eq, ← State.trackerConfig_getD]
    have running : (s.tickReady elapsed rest).cadence.state.running = true ↔
        s.cadence.state = .locked ∨ s.cadence.state = .holdover := by
      show s.cadence.state.running = true ↔ _
      rw [CadenceState.running, Bool.or_eq_true, beq_iff_eq, beq_iff_eq]
    refine ⟨fun room => ?_, fun full state => ?_, fun full notLocked notHoldover => ?_⟩
    · exact congrArg Host.Outcome.next (if_pos room)
    · have dropped : (s.tickReady elapsed rest).holdTick n arrival = (s.tickReady elapsed rest).tickError :=
        (if_neg (Nat.not_lt.mpr full)).trans (if_pos (running.mpr state))
      rw [dropped]
      exact congrArg Host.Outcome.next (s.tickReady elapsed rest).tickError_eq
    · refine congrArg Host.Outcome.next ((if_neg (Nat.not_lt.mpr full)).trans (if_neg ?_))
      rw [running]
      exact not_or.mpr ⟨notLocked, notHoldover⟩

end Sys2Proof.Machine
end

section
/-! SUPPORT. What the rendering raises: of the event records, those of DROPOUT, CLIP and END_LIST_OVERFLOW alone. -/

namespace Sys2Proof.Machine

theorem Report.raise_event_other (r : Report) {c : Capture} {k : EventKind} (other : k ≠ c.kind) :
    (r.raise c).event k = r.event k := by
  rw [Report.raise_event, if_neg other]

theorem Report.raise_event_same (r : Report) (c : Capture) :
    (r.raise c).event c.kind = (r.event c.kind).occur (some c) := by
  rw [Report.raise_event, if_pos rfl]

/-- R158: an end record raises END_LIST_OVERFLOW or nothing. -/
theorem Report.appendEnd_event (r : Report) (e : EndRecord) {k : EventKind} (other : k ≠ .endListOverflow) :
    (r.appendEnd e).event k = r.event k := by
  unfold Report.appendEnd
  split
  · exact r.raise_event_other other
  · dsimp only
    split
    · exact Report.event_congr (Report.flushOne_events _) k
    · rfl

theorem Report.foldl_appendEnd_event {α : Type} (f : α → EndRecord) (l : List α) (r : Report) {k : EventKind}
    (other : k ≠ .endListOverflow) : (l.foldl (fun r a => r.appendEnd (f a)) r).event k = r.event k := by
  induction l generalizing r with
  | nil => rfl
  | cons a l ih =>
    rw [List.foldl_cons, ih]
    exact r.appendEnd_event _ other

/-- An event kind that no block raises. -/
def NotRendered (k : EventKind) : Prop := k ≠ .dropout ∧ k ≠ .clip ∧ k ≠ .endListOverflow

theorem State.freeVoice_report (s : State) (v : Nat) : (s.freeVoice v).report = s.report := rfl

theorem State.putVoice_report (s : State) (v : Nat) (x : Voice) : (s.putVoice v x).report = s.report := rfl

theorem State.endVoiceAt_event (s : State) (v : Nat) (reason : EndReason) (p : Int) {k : EventKind}
    (other : k ≠ .endListOverflow) : (s.endVoiceAt v reason p).report.event k = s.report.event k := by
  unfold State.endVoiceAt
  split
  · rfl
  · rw [State.freeVoice_report, (State.cancelRing_changes _ v).report (by decide),
      (State.uncountVoice_changes _ _).report (by decide)]
    exact s.report.appendEnd_event _ other

theorem State.settleVoice_event (s : State) (v : Nat) (y : Voice) (b : Option BlockEnding) (d : Disposition)
    {k : EventKind} (other : k ≠ .endListOverflow) : (s.settleVoice v y b d).report.event k = s.report.event k := by
  unfold State.settleVoice
  split
  · exact s.endVoiceAt_event _ _ _ other
  · split
    · exact s.endVoiceAt_event _ _ _ other
    · rfl

theorem State.raiseBlockEvents_event (s : State) (x : Voice) (q : PeriodIndex) (r : Rendered) {k : EventKind}
    (other : NotRendered k) : (s.raiseBlockEvents x q r).report.event k = s.report.event k := by
  obtain ⟨dropout, clip, -⟩ := other
  have silent : (if r.silent = 0 then s else s.raise (.dropout x.tag q r.silent)).report.event k = s.report.event k := by
    split
    · rfl
    · exact s.report.raise_event_other dropout
  unfold State.raiseBlockEvents
  dsimp only
  split
  · exact (Report.raise_event_other _ clip).trans silent
  · exact silent

theorem State.renderVoice_event (s : State) (q : PeriodIndex) (v : Nat) (x : Voice) (e : SampleEntry) {k : EventKind}
    (other : NotRendered k) : (s.renderVoice q v x e).report.event k = s.report.event k := by
  have told (r : Rendered) (y : Voice) :
      ((s.raiseBlockEvents x q r).passRendered v y).report.event k = s.report.event k := by
    rw [(State.passRendered_goes _ v y).only.report (by decide)]
    exact s.raiseBlockEvents_event x q r other
  obtain ⟨-, -, overflow⟩ := other
  unfold State.renderVoice
  dsimp only
  rw [State.settleVoice_event _ _ _ _ _ overflow, State.putVoice_report]
  split
  · rw [(State.offer_goes _ _ _).only.report (by decide)]
    exact told _ _
  · exact told _ _

theorem State.renderTurn_event (s : State) (q : PeriodIndex) (v : Nat) {k : EventKind} (other : NotRendered k) :
    (s.renderTurn q v).report.event k = s.report.event k := by
  rw [State.renderTurn, (State.passTurn_goes _ v).only.report (by decide), State.renderRecord]
  split
  · rfl
  · split
    · rfl
    · split
      · exact s.renderVoice_event _ _ _ _ other
      · rfl

theorem State.renderTurns_event (s : State) (q : PeriodIndex) (l : List Nat) {k : EventKind} (other : NotRendered k) :
    (s.renderTurns q l).report.event k = s.report.event k := by
  unfold State.renderTurns
  induction l generalizing s with
  | nil => rfl
  | cons v l ih => rw [List.foldl_cons, ih, s.renderTurn_event q v other]

theorem State.beginPass_event (s : State) (q : PeriodIndex) {k : EventKind} (other : NotRendered k) :
    (s.beginPass q).report.event k = s.report.event k := by
  rw [State.beginPass, State.renderTurns_event _ _ _ other, s.applyMatrices_goes.only.report (by decide)]

/-! ### The pass that an event opens -/

/-- What the rendering of a pass that begins, and the dispatch after it, leave as they were. -/
structure State.Begun (u t : State) (q : PeriodIndex) : Prop where
  pass      : ∃ p : Pass, t.pass = some p ∧ p.period = q
  cadence   : t.cadence = u.cadence
  config    : t.config = u.config
  nextOrder : t.nextOrder = u.nextOrder
  headStore : t.headStore = u.headStore
  ringStore : t.ringStore = u.ringStore
  event     : ∀ k, NotRendered k → t.report.event k = u.report.event k

theorem State.beginPass_begun {u : State} {q : PeriodIndex} (opened : u.pass = some ⟨q, 0, [], 0⟩) :
    u.Begun (u.beginPass q).dispatch q := by
  have dispatched := (State.dispatch_goes (u.beginPass q)).only
  have begun := (u.beginPass_goes q).only
  refine ⟨?_, (dispatched.cadence (by decide)).trans (begun.cadence (by decide)),
    (dispatched.config (by decide)).trans (begun.config (by decide)),
    (dispatched.nextOrder (by decide)).trans (begun.nextOrder (by decide)),
    (dispatched.headStore (by decide)).trans (begun.headStore (by decide)),
    (dispatched.ringStore (by decide)).trans (begun.ringStore (by decide)), fun k other => ?_⟩
  · have underWay := u.afterEvent_passUnderWay
    rw [State.afterEvent_opened opened, State.passUnderWay, State.passUnderWay, opened] at underWay
    obtain ⟨p, pass⟩ := Option.isSome_iff_exists.mp underWay
    obtain ⟨p', pass', same⟩ := (u.beginPass_samePeriod q).period p pass
    obtain rfl := Option.some.inj (opened.symm.trans pass')
    exact ⟨p, (dispatched.pass (by decide)).trans pass, same.symm⟩
  · rw [dispatched.report (by decide)]
    exact u.beginPass_event q other

/-- R105, R106: a tick that opens a pass while no QUERY_STATUS is being read. -/
theorem exec_tick_opens {s : State} {n : PeriodIndex} {arrival : Nat} {rest : List HandedTick}
    (takes : s.TakesTick n arrival rest) (unread : s.NoneRead) (elapsed : Nat) {u : State} {q : PeriodIndex}
    (judged : (s.tickReady elapsed rest).judgeTick n arrival = u) (opened : u.pass = some ⟨q, 0, [], 0⟩) :
    exec (.tick elapsed) s = .next (u.beginPass q).dispatch := by
  have stillUnread : (s.tickReady elapsed rest).NoneRead := unread
  rw [exec_tick_taken takes, State.readBefore_noneRead stillUnread, judged, State.afterEvent_opened opened]

/-- R105: a tick that opens no pass: the error limit is acted on, where it is due. -/
theorem exec_tick_unopened {s : State} {n : PeriodIndex} {arrival : Nat} {rest : List HandedTick}
    (takes : s.TakesTick n arrival rest) (elapsed : Nat) {u : State}
    (judged : (s.tickReady elapsed rest).judgeTick n arrival = u) (opened : u.pass = none) :
    exec (.tick elapsed) s = .next u.actOnLimit.dispatch := by
  have noPass : u.actOnLimit.pass = none := (u.actOnLimit_goes.only.pass (by decide)).trans opened
  rw [exec_tick_taken takes, State.readBefore_unopened] <;> rw [judged, State.afterEvent_unopened opened]
  exact noPass

end Sys2Proof.Machine
end

section
/-! SUPPORT. Every voice ends (R60), and every PENDING voice is judged against a horizon (R51), in record index order. -/

namespace Sys2Proof.Machine

theorem Table.eq_nil_of_get? {α : Type} {t : Table α} (none : ∀ k, Table.get? t k = none) : t = [] := by
  cases t with
  | nil => rfl
  | cons row t =>
    have first := none row.1
    rw [Table.get?_cons, if_pos rfl] at first
    cases first

theorem endingRows_none (rows : Table Voice) : endingRows (fun _ => none) rows = rows :=
  List.filter_eq_self.mpr fun _ _ => rfl

/-- R57, R60, R81: what `endAllVoices` leaves. -/
theorem State.endAllVoices_settles {s : State} (rising : Table.Rising s.voices) :
    s.SettlesAll s.endAllVoices .cadence (fun _ => none) s.voices :=
  State.settlesAll_voices (fun _ _ _ voice => State.endVoice_settles voice .cadence) rising

theorem State.endAllVoices_report {s : State} (rising : Table.Rising s.voices) :
    s.endAllVoices.report = endedTold s s.report := by
  have report := (State.endAllVoices_settles rising).report
  rw [endingRows_none] at report
  exact report

/-- R60: every voice of `s` ended, whatever has happened to the reports, the port, the tracker and the pass before and
after. -/
theorem State.endAllVoices_allEnded {s r u : State} (rising : Table.Rising s.voices)
    (before : s.ChangesOnly r [.port, .report, .cadence, .pass])
    (after : r.endAllVoices.ChangesOnly u [.port, .report, .cadence, .pass]) : AllEnded s u := by
  have voices : r.voices = s.voices := before.voices (by decide)
  have all := State.endAllVoices_settles (s := r) (voices ▸ rising)
  have entries := all.entries
  have rings := all.rings
  rw [endingRows_none, voices] at entries rings
  have agree : (s.voices.foldl (fun r row => r.cancelRing row.1) s).SameRings u :=
    ((State.SameRings.foldl (fun (row : Nat × Voice) k => k.cancelRing row.1) s.voices
      (before.sameRings (by decide) (by decide) (by decide))).trans rings).trans
      (after.sameRings (by decide) (by decide) (by decide))
  have tables : s.SameTables u := (State.SameTables.of_library (before.library (by decide))).trans
    (all.tables.trans (.of_library (after.library (by decide))))
  obtain ⟨articulations, zones, curves, matrices⟩ := tables
  have only : s.ChangesOnly u [.port, .report, .cadence, .pass, .library, .voices, .slots, .lanes] :=
    ((before.wider (by decide)).trans (all.only.wider (by decide))).trans (after.wider (by decide))
  refine ⟨?_, agree.slots, agree.lanes, fun g => ?_, articulations, zones, curves, matrices, only.config (by decide),
    only.nextOrder (by decide), only.headStore (by decide), only.ringStore (by decide), only.freeCount (by decide)⟩
  · rw [after.voices (by decide)]
    refine Table.eq_nil_of_get? fun v => ?_
    exact (all.voice? (voices ▸ rising) v).trans (by cases r.voice? v <;> rfl)
  · rw [State.entry?_congr (congrArg Library.samples (after.library (by decide))), entries,
      State.entry?_congr (congrArg Library.samples (before.library (by decide)))]

/-! ### Late starts at a first lock -/

/-- R51: a PENDING voice that starts before the horizon. -/
def startsLate (q : PeriodIndex) (x : Voice) : Bool :=
  x.state == .pending && isBefore x.startPeriod q

/-- R50: such a voice moved to the horizon; any other as it is. -/
def movedLate (q : PeriodIndex) (x : Voice) : Voice :=
  if startsLate q x then { x with startPeriod := q, late := true } else x

/-- What judging the rows `rows` against the horizon `q` leaves of `s`. -/
structure State.JudgesLate (s t : State) (q : PeriodIndex) (rows : Table Voice) : Prop where
  listed : ∀ v x, (v, x) ∈ rows → t.voice? v = some (movedLate q x)
  others : ∀ w, w ∉ Table.keys rows → t.voice? w = s.voice? w
  report : t.report = (rows.filter fun row => startsLate q row.2).foldl
    (fun r row => r.raise (.lateStart row.2.tag row.2.startPeriod q)) s.report
  rings  : ((rows.filter fun row => startsLate q row.2).foldl
    (fun r row => r.shiftDeadlines row.1 (q - row.2.startPeriod)) s).SameRings t
  only   : s.ChangesOnly t [.report, .voices, .slots, .lanes]

theorem State.judgeLate_eq {s : State} {v : Nat} {x : Voice} (voice : s.voice? v = some x) (q : PeriodIndex) :
    s.judgeLate v q = if startsLate q x then s.makeLate v x q else s := by
  rw [State.judgeLate, voice]
  refine if_congr ?_ rfl rfl
  rw [startsLate, Bool.and_eq_true, beq_iff_eq]

/-- One judgement, then the others. -/
theorem State.JudgesLate.cons {s u : State} {q : PeriodIndex} {v : Nat} {x : Voice} {rows : Table Voice}
    (voice : s.voice? v = some x) (rest : (s.judgeLate v q).JudgesLate u q rows) (later : v ∉ Table.keys rows) :
    s.JudgesLate u q ((v, x) :: rows) := by
  rw [State.judgeLate_eq voice] at rest
  have leaves := s.makeLate_leaves v x q
  have moved : u.voice? v = some (movedLate q x) := by
    rw [rest.others v later, movedLate]
    split
    · obtain ⟨voices, -⟩ := leaves
      rw [voices, if_pos rfl]
    · exact voice
  have unmoved (w : Nat) (other : w ≠ v) (unlisted : w ∉ Table.keys rows) : u.voice? w = s.voice? w := by
    rw [rest.others w unlisted]
    split
    · obtain ⟨voices, -⟩ := leaves
      rw [voices, if_neg other]
    · rfl
  have listed (w : Nat) (y : Voice) (mem : (w, y) ∈ (v, x) :: rows) : u.voice? w = some (movedLate q y) := by
    rcases List.mem_cons.mp mem with here | mem
    · cases here
      exact moved
    · exact rest.listed w y mem
  have others (w : Nat) (unlisted : w ∉ Table.keys ((v, x) :: rows)) : u.voice? w = s.voice? w := by
    rw [Table.keys, List.map_cons, List.mem_cons, not_or] at unlisted
    obtain ⟨other, unlisted⟩ := unlisted
    exact unmoved w other unlisted
  by_cases late : startsLate q x = true
  · obtain ⟨-, told, only⟩ := leaves
    rw [if_pos late] at rest
    have filtered : ((v, x) :: rows).filter (fun row => startsLate q row.2) =
        (v, x) :: rows.filter fun row => startsLate q row.2 := List.filter_cons_of_pos late
    refine ⟨listed, others, ?_, ?_, (only.wider (by decide)).trans rest.only⟩
    · rw [rest.report, told, filtered]
      rfl
    · rw [filtered]
      exact (State.SameRings.foldl (f := fun r (row : Nat × Voice) => r.shiftDeadlines row.1 (q - row.2.startPeriod))
        (fun row k => k.shiftDeadlines row.1 _) _
        (s.makeLate_rings v x q)).trans rest.rings
  · rw [if_neg late] at rest
    have filtered : ((v, x) :: rows).filter (fun row => startsLate q row.2) =
        rows.filter fun row => startsLate q row.2 := List.filter_cons_of_neg late
    exact ⟨listed, others, by rw [filtered]; exact rest.report, by rw [filtered]; exact rest.rings, rest.only⟩

theorem State.judgeAllLate_judges {s : State} (q : PeriodIndex) (rising : Table.Rising s.voices) :
    s.JudgesLate (s.judgeAllLate q) q s.voices := by
  have fold (rows : Table Voice) (rises : Table.Rising rows) (t : State)
      (listed : ∀ v x, (v, x) ∈ rows → t.voice? v = some x) :
      t.JudgesLate ((Table.keys rows).foldl (fun r v => r.judgeLate v q) t) q rows := by
    induction rows generalizing t with
    | nil => exact ⟨nofun, fun _ _ => rfl, rfl, .refl t, .refl t _⟩
    | cons row rows ih =>
      obtain ⟨v, x⟩ := row
      obtain ⟨above, rises⟩ := List.pairwise_cons.mp rises
      have voice := listed v x (List.mem_cons_self ..)
      have later : v ∉ Table.keys rows := by
        intro mem
        obtain ⟨y, mem⟩ := Table.mem_keys.mp mem
        exact Nat.lt_irrefl _ (above (v, y) mem)
      refine State.JudgesLate.cons voice (ih rises _ fun w y mem => ?_) later
      have other : w ≠ v := Nat.ne_of_gt (above (w, y) mem)
      rw [State.judgeLate_eq voice]
      split
      · obtain ⟨voices, -⟩ := t.makeLate_leaves v x q
        rw [voices, if_neg other]
        exact listed w y (List.mem_cons_of_mem _ mem)
      · exact listed w y (List.mem_cons_of_mem _ mem)
  exact fold s.voices rising s fun _ _ mem => Table.get?_of_mem rising mem

theorem State.JudgesLate.voice? {s t : State} {q : PeriodIndex} (h : s.JudgesLate t q s.voices)
    (rising : Table.Rising s.voices) (v : Nat) : t.voice? v = (s.voice? v).map (movedLate q) := by
  cases voice : s.voice? v with
  | none =>
    have unlisted : v ∉ Table.keys s.voices := fun mem => by
      obtain ⟨x, mem⟩ := Table.mem_keys.mp mem
      rw [State.voice?, Table.get?_of_mem rising mem] at voice
      cases voice
    rw [h.others v unlisted, voice, Option.map_none]
  | some x => rw [h.listed v x (Table.mem_of_get? voice), Option.map_some]

end Sys2Proof.Machine
end

section
/-! SUPPORT. Finding a lock (R107 to R110): what a tick in CANDIDATE leaves. -/

namespace Sys2Proof.Machine

theorem inWindow_iff (c : Configuration) (arrival since : Nat) :
    inWindow c arrival since = true ↔
      (c.period : Int) - c.tolerance ≤ (arrival : Int) - since ∧
        (arrival : Int) - since ≤ (c.period : Int) + c.tolerance := by
  rw [inWindow, Bool.and_eq_true, decide_eq_true_eq, decide_eq_true_eq]

/-- A state that keeps the library, the configuration and DRAM is given by the parts that it does not keep. -/
theorem State.ChangesOnly.eq_set {s t : State}
    (h : s.ChangesOnly t [.port, .report, .cadence, .pass, .voices, .slots, .lanes]) :
    t = { s with port := t.port, report := t.report, cadence := t.cadence, pass := t.pass, voices := t.voices,
                 slots := t.slots, lanes := t.lanes } := by
  rcases t with ⟨_, _, _, _, _, _, _, _, _, _, _, _, _, _⟩
  obtain rfl := h.library (by decide)
  obtain rfl := h.nextOrder (by decide)
  obtain rfl := h.config (by decide)
  obtain rfl := h.headStore (by decide)
  obtain rfl := h.ringStore (by decide)
  obtain rfl := h.freeCount (by decide)
  obtain rfl := h.pending (by decide)
  rfl

/-- R105: the tracker at a tick, its index held as the last. -/
def State.tickHeld (s : State) (elapsed : Nat) (rest : List HandedTick) (n : PeriodIndex) : State :=
  { s with port := { s.port with handed := rest },
           cadence := { s.cadence with clock := s.cadence.later elapsed, lastTick := some n } }

theorem State.TakesTick.tickHeld_unheld {s : State} {n : PeriodIndex} {arrival : Nat} {rest : List HandedTick}
    (takes : s.TakesTick n arrival rest) (elapsed : Nat) :
    (s.tickHeld elapsed rest n).cadence.heldConfig = none := by
  obtain ⟨-, -, unheld, -⟩ := takes
  exact unheld

/-- R108: a tick in CANDIDATE. -/
theorem State.judgeTick_candidate {s : State} {n : PeriodIndex} {arrival elapsed : Nat} {rest : List HandedTick}
    {c : Candidate} (takes : s.TakesTick n arrival rest) (state : s.cadence.state = .candidate)
    (held : s.cadence.candidate = some c) :
    (s.tickReady elapsed rest).judgeTick n arrival =
      if n = c.index + 1 ∧ (s.config.period : Int) - s.config.tolerance ≤ (arrival : Int) - c.arrival ∧
          (arrival : Int) - c.arrival ≤ (s.config.period : Int) + s.config.tolerance then
        (s.tickHeld elapsed rest n).lock n
      else (s.tickHeld elapsed rest n).setCadence
        { (s.tickHeld elapsed rest n).cadence with candidate := some { index := n, arrival := arrival } } := by
  have judged : (s.tickReady elapsed rest).judgeTick n arrival = (s.tickHeld elapsed rest n).judgeCandidate n arrival := by
    have state : (s.tickReady elapsed rest).cadence.state = .candidate := state
    rw [State.judgeTick, state]
    rfl
  have held : (s.tickHeld elapsed rest n).cadence.candidate = some c := held
  rw [judged, State.judgeCandidate, held]
  dsimp only
  rw [State.trackerConfig_eq (takes.tickHeld_unheld elapsed)]
  exact if_congr (and_congr_right fun _ => inWindow_iff _ _ _) rfl rfl

/-- R108: the tracker LOCKED by a lock, its windows and its marker cleared. -/
theorem State.enterLocked_eq (s : State) :
    s.enterLocked =
      { s with cadence := { s.cadence.clearWindows with state := .locked, misaligned := false, candidate := none,
                                                        missed := 0 },
               report := s.report.raise (.cadenceState s.cadence.state s.cadence.misaligned .locked false) } := rfl

/-- The tracker LOCKED, with its render horizon. -/
def State.lockedFor (s : State) (q : PeriodIndex) : State :=
  s.enterLocked.setCadence { s.enterLocked.cadence with horizon := some q }

theorem State.lockedFor_changes (s : State) (elapsed : Nat) (rest : List HandedTick) (n q : PeriodIndex) :
    s.ChangesOnly ((s.tickHeld elapsed rest n).lockedFor q) [.port, .report, .cadence] := by
  intro p other
  cases p <;> first | rfl | exact absurd (by decide) other

theorem State.lockedFor_report {s : State} (state : s.cadence.state = .candidate) (elapsed : Nat)
    (rest : List HandedTick) (n q : PeriodIndex) :
    ((s.tickHeld elapsed rest n).lockedFor q).report =
      s.report.raise (.cadenceState .candidate s.cadence.misaligned .locked false) :=
  congrArg (fun x => s.report.raise (.cadenceState x s.cadence.misaligned .locked false)) state

/-- R106, R108: the tracker when the pass of a lock has been opened. -/
theorem State.openPass_lockedAt {s u : State} {n q : PeriodIndex} {elapsed : Nat} {rest : List HandedTick}
    (unheld : s.cadence.heldConfig = none) (cadence : u.cadence = ((s.tickHeld elapsed rest n).lockedFor q).cadence)
    (config : u.config = s.config) :
    u.openPass q (lockedWait s.config) =
      { u with cadence := lockedAt s.cadence s.config n q (s.cadence.later elapsed), pass := some ⟨q, 0, [], 0⟩ } := by
  have same : u.trackerConfig = s.config := by
    rw [State.trackerConfig_eq, config]
    rw [cadence]
    exact unheld
  rw [State.openPass_eq, same, cadence]
  rfl

/-- R109: a first lock. -/
theorem State.lock_first {s : State} {n : PeriodIndex} {arrival elapsed : Nat} {rest : List HandedTick}
    (takes : s.TakesTick n arrival rest) (horizon : s.cadence.horizon = none) :
    (s.tickHeld elapsed rest n).lock n =
      { ((s.tickHeld elapsed rest n).lockedFor (lockHorizon n s.config.lead)).judgeAllLate (lockHorizon n s.config.lead) with
        cadence := lockedAt s.cadence s.config n (lockHorizon n s.config.lead) (s.cadence.later elapsed),
        pass := some ⟨lockHorizon n s.config.lead, 0, [], 0⟩ } := by
  have undefinedHorizon : (s.tickHeld elapsed rest n).cadence.horizon = none := horizon
  have same : (s.tickHeld elapsed rest n).enterLocked.trackerConfig = s.config :=
    State.trackerConfig_eq (s := (s.tickHeld elapsed rest n).enterLocked) (takes.tickHeld_unheld elapsed)
  obtain ⟨-, -, unheld, -⟩ := takes
  rw [State.lock, undefinedHorizon]
  dsimp only
  rw [State.firstLock, same]
  have judged := ((s.tickHeld elapsed rest n).lockedFor (lockHorizon n s.config.lead)).judgeAllLate_goes
    (lockHorizon n s.config.lead)
  exact State.openPass_lockedAt unheld (judged.only.cadence (by decide)) (judged.only.config (by decide))

/-- R110: a relock at the expected index. -/
theorem State.lock_expected {s : State} {n q : PeriodIndex} {arrival elapsed : Nat} {rest : List HandedTick}
    (takes : s.TakesTick n arrival rest) (horizon : s.cadence.horizon = some q)
    (expected : n = q - BitVec.ofNat 32 s.config.lead) :
    (s.tickHeld elapsed rest n).lock n =
      { (s.tickHeld elapsed rest n).enterLocked with
        cadence := lockedAt s.cadence s.config n q (s.cadence.later elapsed), pass := some ⟨q, 0, [], 0⟩ } := by
  have kept : (s.tickHeld elapsed rest n).cadence.horizon = some q := horizon
  have same : (s.tickHeld elapsed rest n).trackerConfig = s.config :=
    State.trackerConfig_eq (takes.tickHeld_unheld elapsed)
  obtain ⟨-, -, unheld, -⟩ := takes
  rw [State.lock, kept]
  dsimp only
  rw [same, if_pos (by exact expected)]
  refine State.openPass_lockedAt (rest := rest) unheld ?_ rfl
  show (s.tickHeld elapsed rest n).enterLocked.cadence = { (s.tickHeld elapsed rest n).enterLocked.cadence with horizon := some q }
  rw [← kept]
  rfl

/-- R110: a relock at another index. -/
theorem State.lock_shifted {s : State} {n q : PeriodIndex} {arrival elapsed : Nat} {rest : List HandedTick}
    (takes : s.TakesTick n arrival rest) (horizon : s.cadence.horizon = some q)
    (other : n ≠ q - BitVec.ofNat 32 s.config.lead) :
    (s.tickHeld elapsed rest n).lock n =
      { ((s.tickHeld elapsed rest n).enterLocked.raise
          (.cadenceShift (q - BitVec.ofNat 32 s.config.lead) n)).endAllVoices with
        cadence := lockedAt s.cadence s.config n (lockHorizon n s.config.lead) (s.cadence.later elapsed),
        pass := some ⟨lockHorizon n s.config.lead, 0, [], 0⟩ } := by
  have kept : (s.tickHeld elapsed rest n).cadence.horizon = some q := horizon
  have same : (s.tickHeld elapsed rest n).trackerConfig = s.config :=
    State.trackerConfig_eq (takes.tickHeld_unheld elapsed)
  have sameLocked : (s.tickHeld elapsed rest n).enterLocked.trackerConfig = s.config :=
    State.trackerConfig_eq (s := (s.tickHeld elapsed rest n).enterLocked) (takes.tickHeld_unheld elapsed)
  obtain ⟨-, -, unheld, -⟩ := takes
  rw [State.lock, kept]
  dsimp only
  rw [same, if_neg (by exact other), State.shiftLock, sameLocked]
  have ended := ((s.tickHeld elapsed rest n).enterLocked.raise
    (.cadenceShift (expectedIndex q s.config.lead) n)).endAllVoices_goes.only
  refine State.openPass_lockedAt (rest := rest) unheld ?_ (ended.config (by decide))
  have cadence := ended.cadence (by decide)
  rw [State.setCadence_cadence, cadence]
  rfl

theorem movedLate_eq (q : PeriodIndex) (x : Voice) :
    movedLate q x =
      if x.state = .pending ∧ isBefore x.startPeriod q = true then { x with startPeriod := q, late := true } else x := by
  rw [movedLate]
  exact if_congr (by rw [startsLate, Bool.and_eq_true, beq_iff_eq]) rfl rfl

theorem Report.foldl_raise_event_other {α : Type} (f : α → Capture) {k : EventKind} (l : List α) (r : Report)
    (other : ∀ a, k ≠ (f a).kind) : (l.foldl (fun r a => r.raise (f a)) r).event k = r.event k := by
  induction l generalizing r with
  | nil => rfl
  | cons a l ih => rw [List.foldl_cons, ih, Report.raise_event_other _ (other a)]

theorem notRendered_cadenceState : NotRendered .cadenceState := ⟨nofun, nofun, nofun⟩

theorem notRendered_cadenceShift : NotRendered .cadenceShift := ⟨nofun, nofun, nofun⟩

theorem notRendered_cadenceSevere : NotRendered .cadenceSevere := ⟨nofun, nofun, nofun⟩

/-- R108, R120: CADENCE_STATE with CANDIDATE and LOCKED, each with its marker. -/
theorem Report.raise_lock_event (r : Report) (m : Bool) :
    (r.raise (.cadenceState .candidate m .locked false)).event .cadenceState =
      (r.event .cadenceState).occur (some (.cadenceState .candidate m .locked false)) :=
  r.raise_event_same (.cadenceState .candidate m .locked false)

/-- Settles O35: the tick is a first lock, which judges every voice against its horizon, or replaces the candidate. -/
theorem candidateTick : Obligations.CandidateTick := by
  intro s n arrival rest elapsed c takes state held
  have judged := State.judgeTick_candidate (elapsed := elapsed) takes state held
  refine ⟨fun good horizon unread rising => ?_, fun bad => ?_⟩
  · rw [if_pos good, State.lock_first takes horizon] at judged
    have locked := s.lockedFor_changes elapsed rest n (lockHorizon n s.config.lead)
    have told := State.lockedFor_report state elapsed rest n (lockHorizon n s.config.lead)
    have all := State.judgeAllLate_judges (s := (s.tickHeld elapsed rest n).lockedFor (lockHorizon n s.config.lead))
      (lockHorizon n s.config.lead) rising
    generalize after : ((s.tickHeld elapsed rest n).lockedFor (lockHorizon n s.config.lead)).judgeAllLate
      (lockHorizon n s.config.lead) = w at judged all
    have report := all.report
    rw [told] at report
    have rings := (State.SameRings.foldl
      (f := fun r (row : Nat × Voice) => r.shiftDeadlines row.1 (lockHorizon n s.config.lead - row.2.startPeriod))
      (fun row k => k.shiftDeadlines row.1 _)
      (s.voices.filter fun row => startsLate (lockHorizon n s.config.lead) row.2)
      (locked.sameRings (by decide) (by decide) (by decide))).trans all.rings
    have only : s.ChangesOnly w [.port, .report, .cadence, .pass, .voices, .slots, .lanes] :=
      (locked.wider (by decide)).trans (all.only.wider (by decide))
    obtain ⟨u, is⟩ : ∃ u : State, u = { w with
        cadence := lockedAt s.cadence s.config n (lockHorizon n s.config.lead) (s.cadence.later elapsed)
        pass := some ⟨lockHorizon n s.config.lead, 0, [], 0⟩ } := ⟨_, rfl⟩
    have opened : u.pass = some ⟨lockHorizon n s.config.lead, 0, [], 0⟩ := by rw [is]
    have cadence : u.cadence = lockedAt s.cadence s.config n (lockHorizon n s.config.lead) (s.cadence.later elapsed) := by
      rw [is]
    have begun := State.beginPass_begun opened
    obtain ⟨p, pass, period⟩ := begun.pass
    refine ⟨u, p, ?_, fun v => ?_, exec_tick_opens takes unread elapsed (judged.trans is.symm) opened, pass, period,
      begun.cadence.trans cadence, ?_, ?_, ?_, ?_, ?_⟩
    · have port : w.port = { s.port with handed := rest } := all.only.port (by decide)
      calc u = _ := is
        _ = _ := congrArg (fun t : State => { t with
                  cadence := lockedAt s.cadence s.config n (lockHorizon n s.config.lead) (s.cadence.later elapsed)
                  pass := some ⟨lockHorizon n s.config.lead, 0, [], 0⟩ }) only.eq_set
        _ = _ := by rw [port, report, rings.slots, rings.lanes, is]; rfl
    · have voice : u.voice? v = (s.voice? v).map (movedLate (lockHorizon n s.config.lead)) := by
        rw [is]
        exact all.voice? rising v
      rw [voice]
      exact congrArg (Option.map · _) (funext (movedLate_eq _))
    · have same : u.report = w.report := by rw [is]
      refine (begun.event .cadenceState notRendered_cadenceState).trans ?_
      rw [same, report, Report.foldl_raise_event_other
        (fun row : Nat × Voice => .lateStart row.2.tag row.2.startPeriod (lockHorizon n s.config.lead))]
      · exact s.report.raise_lock_event _
      · exact fun _ => nofun
    · exact begun.config.trans ((congrArg State.config is).trans (only.config (by decide)))
    · exact begun.nextOrder.trans ((congrArg State.nextOrder is).trans (only.nextOrder (by decide)))
    · exact begun.headStore.trans ((congrArg State.headStore is).trans (only.headStore (by decide)))
    · exact begun.ringStore.trans ((congrArg State.ringStore is).trans (only.ringStore (by decide)))
  · rw [if_neg bad] at judged
    have ⟨noPass, _, _, notDue⟩ := takes
    rw [exec_tick_unopened takes elapsed judged noPass]
    exact congrArg (fun t => Host.Outcome.next (State.dispatch t)) (State.actOnLimit_of_not_due notDue)

/-- R122: a pass with every voice FREE has no turns. -/
theorem State.beginPass_voiceless {s : State} (none : s.voices = []) (q : PeriodIndex) :
    s.beginPass q = s.applyMatrices := by
  rw [State.beginPass, none]
  rfl

/-- Settles O36: the relock goes on with its horizon, or ends every voice and takes another. -/
theorem relock : Obligations.Relock := by
  intro s n q arrival rest elapsed c takes state held horizon unread next early late
  have judged := State.judgeTick_candidate (elapsed := elapsed) takes state held
  rw [if_pos ⟨next, early, late⟩] at judged
  have told := State.lockedFor_report state elapsed rest n q
  refine ⟨fun expected => ?_, fun other rising => ?_⟩
  · rw [State.lock_expected takes horizon expected] at judged
    obtain ⟨u, is⟩ : ∃ u : State, u = { s with
        port := { s.port with handed := rest }, cadence := lockedAt s.cadence s.config n q (s.cadence.later elapsed)
        pass := some ⟨q, 0, [], 0⟩
        report := s.report.raise (.cadenceState .candidate s.cadence.misaligned .locked false) } := ⟨_, rfl⟩
    have judged : (s.tickReady elapsed rest).judgeTick n arrival = u := by
      rw [judged, is, ← told]
      rfl
    have opened : u.pass = some ⟨q, 0, [], 0⟩ := by rw [is]
    have begun := State.beginPass_begun opened
    obtain ⟨p, pass, period⟩ := begun.pass
    dsimp only
    rw [← is]
    refine ⟨⟨p, exec_tick_opens takes unread elapsed judged opened, pass, period, ?_, ?_, ?_, ?_, ?_, ?_⟩, ?_⟩
    · exact begun.cadence.trans (by rw [is])
    · rw [begun.event _ notRendered_cadenceState, is]
      exact s.report.raise_lock_event _
    · exact begun.config.trans (by rw [is])
    · exact begun.nextOrder.trans (by rw [is])
    · exact begun.headStore.trans (by rw [is])
    · exact begun.ringStore.trans (by rw [is])
    · rw [begun.event _ notRendered_cadenceShift, is]
      exact s.report.raise_event_other nofun
  · rw [State.lock_shifted takes horizon other] at judged
    obtain ⟨shifted, isShifted⟩ : ∃ r : State, r =
      (s.tickHeld elapsed rest n).enterLocked.raise (.cadenceShift (q - BitVec.ofNat 32 s.config.lead) n) := ⟨_, rfl⟩
    rw [← isShifted] at judged
    obtain ⟨u, is⟩ : ∃ u : State, u = { shifted.endAllVoices with
        cadence := lockedAt s.cadence s.config n (lockHorizon n s.config.lead) (s.cadence.later elapsed)
        pass := some ⟨lockHorizon n s.config.lead, 0, [], 0⟩ } := ⟨_, rfl⟩
    have before : s.ChangesOnly shifted [.port, .report, .cadence, .pass] := by
      rw [isShifted]
      exact fun part other => by cases part <;> first | rfl | exact absurd (by decide) other
    have after : shifted.endAllVoices.ChangesOnly u [.port, .report, .cadence, .pass] := by
      rw [is]
      exact fun part other => by cases part <;> first | rfl | exact absurd (by decide) other
    have allEnded := State.endAllVoices_allEnded rising before after
    have ⟨ended, _⟩ := allEnded
    have risingShifted : Table.Rising shifted.voices := by
      rw [before.voices (by decide)]
      exact rising
    have raised : shifted.report = (s.report.raise (.cadenceState .candidate s.cadence.misaligned .locked false)).raise
        (.cadenceShift (q - BitVec.ofNat 32 s.config.lead) n) := by
      rw [← told, isShifted]
      rfl
    have report : u.report = endedTold s shifted.report := by
      have ended := State.endAllVoices_report risingShifted
      rw [endedTold, before.voices (by decide), ← endedTold] at ended
      rw [← ended, is]
    have port : u.port = { s.port with handed := rest } := by
      have kept : shifted.endAllVoices.port = shifted.port := shifted.endAllVoices_goes.only.port (by decide)
      rw [is]
      exact kept.trans (by rw [isShifted]; rfl)
    have opened : u.pass = some ⟨lockHorizon n s.config.lead, 0, [], 0⟩ := by rw [is]
    have begun := State.beginPass_begun opened
    obtain ⟨p, pass, period⟩ := begun.pass
    have kept : s.ChangesOnly u [.port, .report, .cadence, .pass, .library, .voices, .slots, .lanes] :=
      ((before.wider (by decide)).trans (shifted.endAllVoices_goes.only.wider (by decide))).trans
        (after.wider (by decide))
    refine ⟨u, allEnded, port, by rw [is]; rfl, opened, by rw [report, raised],
      ⟨p, exec_tick_opens takes unread elapsed (judged.trans is.symm) opened, pass, period, ?_, ?_, ?_, ?_, ?_, ?_⟩,
      fun v => ?_, ?_⟩
    · exact begun.cadence.trans (by rw [is]; rfl)
    · refine (begun.event _ notRendered_cadenceState).trans ?_
      rw [report, raised, endedTold, Report.foldl_appendEnd_event _ _ _ (by nofun), Report.raise_event_other _ (by nofun)]
      exact s.report.raise_lock_event _
    · exact begun.config.trans (kept.config (by decide))
    · exact begun.nextOrder.trans (kept.nextOrder (by decide))
    · exact begun.headStore.trans (kept.headStore (by decide))
    · exact begun.ringStore.trans (kept.ringStore (by decide))
    · have gone : (u.beginPass (lockHorizon n s.config.lead)).dispatch.voices = [] := by
        rw [(State.dispatch_goes _).only.voices (by decide), State.beginPass_voiceless ended,
          u.applyMatrices_goes.only.voices (by decide), ended]
      exact congrArg (Table.get? · v) gone
    · refine (begun.event _ notRendered_cadenceShift).trans ?_
      rw [report, raised, endedTold, Report.foldl_appendEnd_event _ _ _ (by nofun)]
      refine (Report.raise_event_same _ (.cadenceShift (q - BitVec.ofNat 32 s.config.lead) n)).trans ?_
      rw [Report.raise_event_other _ (by nofun)]
      rfl

end Sys2Proof.Machine
end

section
/-! SUPPORT. The tracker in LOCKED and HOLDOVER (R111 to R118): ticks, missed ticks, the error limit, and loss. -/

namespace Sys2Proof.Machine

/-! ### The error limit -/

theorem State.searchAgain_eq (s : State) :
    s.searchAgain = { s with cadence := trackerSearch s.cadence,
                             report := s.report.raise
                               (.cadenceState s.cadence.state s.cadence.misaligned .search false) } := by
  rw [trackerSearch, ← dropExpiry_eq]
  rfl

theorem State.markMisaligned_eq (s : State) :
    s.markMisaligned = { s with cadence := { s.cadence with misaligned := true, limitDue := false },
                                report := if s.cadence.misaligned = true then s.report
                                  else s.report.raise (.cadenceState s.cadence.state false s.cadence.state true) } := by
  unfold State.markMisaligned
  by_cases marked : s.cadence.misaligned = true
  · rw [if_pos marked, if_pos marked]
    have same : { s.cadence with limitDue := false } = { s.cadence with misaligned := true, limitDue := false } :=
      congrArg (fun m => { s.cadence with misaligned := m, limitDue := false }) marked
    rw [same]
    rfl
  · rw [if_neg marked, if_neg marked]
    exact congrArg (fun m => { s with cadence := { s.cadence with misaligned := true, limitDue := false },
                                      report := s.report.raise (.cadenceState s.cadence.state m s.cadence.state true) })
      (Bool.eq_false_iff.mpr marked)

theorem severeTold_event_severe (s : State) (expected : PeriodIndex) :
    (severeTold s expected).event .cadenceSevere =
      if s.cadence.severeCount + 1 = 2 ∧ s.cadence.severeRaised = false then
        (s.report.event .cadenceSevere).occur (some (.cadenceSevere expected))
      else s.report.event .cadenceSevere := by
  unfold severeTold
  split
  · exact s.report.raise_event_same (.cadenceSevere expected)
  · rfl

theorem severeTold_event_other (s : State) (expected : PeriodIndex) {k : EventKind} (other : k ≠ .cadenceSevere) :
    (severeTold s expected).event k = s.report.event k := by
  unfold severeTold
  split
  · exact s.report.raise_event_other other
  · rfl

theorem Report.raise_cadenceState_severe (r : Report) (x y : CadenceState) (a b : Bool) :
    (r.raise (.cadenceState x a y b)).event .cadenceSevere = r.event .cadenceSevere :=
  r.raise_event_other nofun

/-! ### The expected tick, and any other -/

/-- R113: LOCKED with no tick missed, from HOLDOVER with CADENCE_STATE. -/
theorem State.returnToLocked_eq {s : State} (state : s.cadence.state = .locked ∨ s.cadence.state = .holdover) :
    s.returnToLocked =
      { s with cadence := { s.cadence with state := .locked, missed := 0 },
               report := if s.cadence.state = .holdover then
                   s.report.raise (.cadenceState .holdover s.cadence.misaligned .locked s.cadence.misaligned)
                 else s.report } := by
  rw [State.returnToLocked]
  rcases state with locked | holdover
  · have other : ¬ s.cadence.state = .holdover := by rw [locked]; nofun
    rw [if_neg other, if_neg other]
    exact congrArg (fun x => s.setCadence { s.cadence with state := x, missed := 0 }) locked
  · rw [if_pos holdover, if_pos holdover]
    exact congrArg (fun x => { s with
        cadence := { s.cadence with state := .locked, missed := 0 }
        report := s.report.raise (.cadenceState x s.cadence.misaligned .locked s.cadence.misaligned) }) holdover

/-- R113: LOCKED again, and the pass of the render horizon opened. -/
theorem State.returnToLocked_openPass {s : State} (unheld : s.cadence.heldConfig = none)
    (state : s.cadence.state = .locked ∨ s.cadence.state = .holdover) (q : PeriodIndex) :
    s.returnToLocked.openPass q (lockedWait s.config) =
      { s with
        cadence := passOpened { s.cadence with state := .locked, missed := 0 } s.config.errorWindow s.cadence.clock
          (s.config.period + s.config.tolerance)
        pass := some ⟨q, 0, [], 0⟩
        report := if s.cadence.state = .holdover then
            s.report.raise (.cadenceState .holdover s.cadence.misaligned .locked s.cadence.misaligned)
          else s.report } := by
  have same : s.returnToLocked.trackerConfig = s.config := by
    rw [State.returnToLocked_eq state]
    exact State.trackerConfig_eq (s := s.setCadence { s.cadence with state := .locked, missed := 0 }) unheld
  rw [State.openPass_eq, same, State.returnToLocked_eq state]
  rfl

/-- R111, R113: the expected tick: GOOD or EARLY, and the pass of the render horizon opened. -/
theorem State.expectedTick_eq {s : State} {q : PeriodIndex} (unheld : s.cadence.heldConfig = none)
    (horizon : s.cadence.horizon = some q) (state : s.cadence.state = .locked ∨ s.cadence.state = .holdover)
    (arrival : Nat) :
    s.expectedTick q arrival =
      let inTime := (s.config.period : Int) - s.config.tolerance ≤ (arrival : Int) - s.cadence.lastOpening ∧
        (arrival : Int) - s.cadence.lastOpening ≤ (s.config.period : Int) + s.config.tolerance
      let judged := if inTime then s.cadence else errorCounted s.cadence s.config.errorLimit
      let told := if inTime then s.report else severeTold s (q - BitVec.ofNat 32 s.config.lead)
      { s with
        cadence := passOpened { judged with state := .locked, missed := 0 } s.config.errorWindow s.cadence.clock
          (s.config.period + s.config.tolerance)
        pass := some ⟨q, 0, [], 0⟩
        report := if s.cadence.state = .holdover then
            told.raise (.cadenceState .holdover s.cadence.misaligned .locked s.cadence.misaligned)
          else told } := by
  rw [State.expectedTick, State.tickError_running horizon, State.trackerConfig_eq unheld]
  by_cases inTime : inWindow s.config arrival s.cadence.lastOpening = true
  · rw [if_pos inTime, State.returnToLocked_openPass unheld state]
    have inTime := (inWindow_iff _ _ _).mp inTime
    simp only [if_pos inTime]
  · rw [if_neg inTime]
    have late := fun h => inTime ((inWindow_iff _ _ _).mpr h)
    simp only [if_neg late]
    exact State.returnToLocked_openPass
      (s := { s with cadence := errorCounted s.cadence s.config.errorLimit
                     report := severeTold s (q - BitVec.ofNat 32 s.config.lead) }) unheld state q

theorem State.judgeTick_running {s : State} {n q : PeriodIndex} {arrival elapsed : Nat} {rest : List HandedTick}
    (takes : s.TakesTick n arrival rest) (state : s.cadence.state = .locked ∨ s.cadence.state = .holdover)
    (horizon : s.cadence.horizon = some q) :
    (s.tickReady elapsed rest).judgeTick n arrival =
      if n = q - BitVec.ofNat 32 s.config.lead then (s.tickHeld elapsed rest n).expectedTick q arrival
      else (s.tickHeld elapsed rest n).otherTick n (q - BitVec.ofNat 32 s.config.lead) := by
  have judged : (s.tickReady elapsed rest).judgeTick n arrival = (s.tickHeld elapsed rest n).judgeRunning n arrival := by
    have state : (s.tickReady elapsed rest).cadence.state = .locked ∨
      (s.tickReady elapsed rest).cadence.state = .holdover := state
    rw [State.judgeTick]
    rcases state with is | is <;> rw [is] <;> rfl
  have horizon : (s.tickHeld elapsed rest n).cadence.horizon = some q := horizon
  rw [judged, State.judgeRunning, horizon]
  dsimp only
  rw [State.trackerConfig_eq (takes.tickHeld_unheld elapsed)]
  rfl

/-- R111: a tick before or after the expected index. -/
theorem State.otherTick_isError {s : State} {n expected : PeriodIndex}
    (other : isBefore n expected = true ∨ isBefore expected n = true) : s.otherTick n expected = s.tickError :=
  if_pos (Bool.or_eq_true _ _ ▸ other)

/-- R116: a tick error that does not reach M, and one that does with automatic relock on and off. -/
theorem State.actOnLimit_errorCounted {s : State} {u : State} {report : Report} (notDue : s.cadence.limitDue = false)
    (unheld : s.cadence.heldConfig = none)
    (is : u = { s with cadence := errorCounted s.cadence s.config.errorLimit, report := report }) :
    (s.cadence.errorCount + 1 ≠ s.config.errorLimit → u.actOnLimit = u) ∧
    (s.cadence.errorCount + 1 = s.config.errorLimit → s.config.autoRelock = true → u.actOnLimit = u.searchAgain) ∧
    (s.cadence.errorCount + 1 = s.config.errorLimit → s.config.autoRelock = false →
      u.actOnLimit = u.markMisaligned) := by
  have due : u.cadence.limitDue = decide (s.cadence.errorCount + 1 = s.config.errorLimit) := by
    rw [is]
    show (s.cadence.limitDue || _) = _
    rw [notDue, Bool.false_or]
  have config : u.trackerConfig = s.config := by
    rw [is]
    exact State.trackerConfig_eq (s := { s with cadence := errorCounted s.cadence s.config.errorLimit
                                                report := report }) unheld
  refine ⟨fun below => ?_, fun reached relock => ?_, fun reached relock => ?_⟩
  · exact State.actOnLimit_of_not_due (due.trans (decide_eq_false below))
  · rw [State.actOnLimit_of_due (due.trans (decide_eq_true reached)), State.limitAction, config]
    exact if_pos relock
  · rw [State.actOnLimit_of_due (due.trans (decide_eq_true reached)), State.limitAction, config]
    exact if_neg (Bool.eq_false_iff.mp relock)

/-- Settles O37: the expected tick opens the pass; any other is an error, and the limit is acted on. -/
theorem runningTick : Obligations.RunningTick := by
  intro s n q arrival rest elapsed takes state horizon
  have judged := State.judgeTick_running (elapsed := elapsed) takes state horizon
  have unheld := takes.tickHeld_unheld elapsed
  refine ⟨fun expected unread => ?_, fun other => ?_⟩
  · rw [if_pos expected, State.expectedTick_eq unheld horizon state arrival] at judged
    intro counted told cadence u t
    have opened : u.pass = some ⟨q, 0, [], 0⟩ := rfl
    have begun := State.beginPass_begun opened
    obtain ⟨p, pass, period⟩ := begun.pass
    refine ⟨p, exec_tick_opens takes unread elapsed judged opened, pass, period, begun.cadence, ?_, ?_,
      begun.config, begun.nextOrder, begun.headStore, begun.ringStore⟩
    · rw [begun.event _ notRendered_cadenceState]
      have toldState : told.event .cadenceState = s.report.event .cadenceState := by
        unfold told
        split
        · rfl
        · exact severeTold_event_other _ _ nofun
      show (if _ then _ else _ : Report).event .cadenceState = _
      split
      · rw [← toldState]
        exact told.raise_event_same (.cadenceState .holdover s.cadence.misaligned .locked s.cadence.misaligned)
      · exact toldState
    · rw [begun.event _ notRendered_cadenceSevere]
      have toldSevere : u.report.event .cadenceSevere = told.event .cadenceSevere := by
        show (if _ then _ else _ : Report).event .cadenceSevere = _
        split
        · exact told.raise_cadenceState_severe _ _ _ _
        · rfl
      rw [toldSevere]
      unfold told
      split
      · rfl
      · exact severeTold_event_severe _ _
  · have notExpected : n ≠ q - BitVec.ofNat 32 s.config.lead := by
      intro same
      rw [← same, or_self, isBefore_self] at other
      cases other
    rw [if_neg notExpected, State.otherTick_isError other, State.tickError_running (s := s.tickHeld elapsed rest n) horizon,
      State.trackerConfig_eq unheld] at judged
    have ⟨noPass, _, _, notDue⟩ := takes
    have acted := State.actOnLimit_errorCounted (s := s.tickHeld elapsed rest n)
      (report := severeTold s (q - BitVec.ofNat 32 s.config.lead)) notDue unheld rfl
    obtain ⟨below, relocks, marks⟩ := acted
    have severe := severeTold_event_severe s (q - BitVec.ofNat 32 s.config.lead)
    rw [exec_tick_unopened takes elapsed judged noPass]
    refine ⟨fun h => ⟨?_, severe⟩, fun h relock => ⟨?_, ?_⟩, fun h relock => ⟨?_, ?_⟩⟩
    · exact congrArg (fun t : State => Host.Outcome.next t.dispatch) (below h)
    · exact congrArg (fun t : State => Host.Outcome.next t.dispatch) ((relocks h relock).trans (State.searchAgain_eq _))
    · exact (Report.raise_cadenceState_severe _ _ _ _ _).trans severe
    · exact congrArg (fun t : State => Host.Outcome.next t.dispatch) ((marks h relock).trans (State.markMisaligned_eq _))
    · split
      · exact severe
      · exact (Report.raise_cadenceState_severe _ _ _ _ _).trans severe

/-! ### Missed ticks and loss -/

theorem Port.tickBefore_eq_false {p : Port} {time : Nat} (none : ∀ n ∈ p.handed, time ≤ n.arrival) :
    p.tickBefore time = false := by
  rw [Port.tickBefore, List.any_eq_false]
  intro n mem
  have after := none n mem
  simpa using after

/-- R112, R172: the expiry that the tracker takes, and the pass that it opens. -/
theorem exec_expiry_taken {s : State} {expiry : Nat} (noPass : s.pass = none) (timer : s.cadence.timer = some expiry)
    (first : ∀ n ∈ s.port.handed, expiry ≤ n.arrival) :
    exec .localPeriodTimerExpiry s =
      .next ((s.expireTimer expiry).readBefore fun u => u.judgeExpiry.afterEvent).dispatch := by
  show execLocalPeriodTimerExpiry s = _
  rw [execLocalPeriodTimerExpiry, timer]
  dsimp only
  rw [Port.tickBefore_eq_false first, if_neg nofun]
  refine if_neg ?_
  show ¬ s.pass.isSome = true
  rw [noPass]
  nofun

theorem State.judgeExpiry_running {s : State} {q : PeriodIndex} (unheld : s.cadence.heldConfig = none)
    (horizon : s.cadence.horizon = some q) (state : s.cadence.state = .locked ∨ s.cadence.state = .holdover) :
    s.judgeExpiry = if s.cadence.missed + 1 < s.config.missedLimit then s.coverMissed q else s.enterLost := by
  rw [State.judgeExpiry, horizon, State.trackerConfig_eq unheld]
  rcases state with is | is <;> rw [is]

theorem State.openPass_unheld {s : State} (unheld : s.cadence.heldConfig = none) (q : PeriodIndex) (wait : Nat) :
    s.openPass q wait = { s with cadence := passOpened s.cadence s.config.errorWindow s.cadence.clock wait,
                                 pass := some ⟨q, 0, [], 0⟩ } := by
  rw [State.openPass_eq, State.trackerConfig_eq unheld]

/-- R112, R113: a missed tick that is covered. -/
theorem State.coverMissed_eq {s : State} {q : PeriodIndex} (unheld : s.cadence.heldConfig = none)
    (horizon : s.cadence.horizon = some q) (state : s.cadence.state = .locked ∨ s.cadence.state = .holdover) :
    s.coverMissed q =
      { s with
        cadence := passOpened
          { errorCounted s.cadence s.config.errorLimit with state := .holdover, missed := s.cadence.missed + 1 }
          s.config.errorWindow s.cadence.clock s.config.period
        pass := some ⟨q, 0, [], 0⟩
        report := if s.cadence.state = .locked then
            (severeTold s (q - BitVec.ofNat 32 s.config.lead)).raise
              (.cadenceState .locked s.cadence.misaligned .holdover s.cadence.misaligned)
          else severeTold s (q - BitVec.ofNat 32 s.config.lead) } := by
  have counted : (s.setCadence { s.cadence with missed := s.cadence.missed + 1 }).tickError =
      { s with cadence := { errorCounted s.cadence s.config.errorLimit with missed := s.cadence.missed + 1 }
               report := severeTold s (q - BitVec.ofNat 32 s.config.lead) } := by
    have same : (s.setCadence { s.cadence with missed := s.cadence.missed + 1 }).trackerConfig = s.config :=
      State.trackerConfig_eq (s := s.setCadence { s.cadence with missed := s.cadence.missed + 1 }) unheld
    rw [State.tickError_running (s := s.setCadence { s.cadence with missed := s.cadence.missed + 1 }) horizon, same]
    rfl
  rw [State.coverMissed, counted, State.trackerConfig_eq unheld]
  rcases state with locked | holdover
  · simp only [if_pos locked]
    rw [← locked]
    exact State.openPass_unheld
      (s := { s with cadence := { errorCounted s.cadence s.config.errorLimit with
                                    state := .holdover, missed := s.cadence.missed + 1 }
                     report := (severeTold s (q - BitVec.ofNat 32 s.config.lead)).raise
                       (.cadenceState s.cadence.state s.cadence.misaligned .holdover s.cadence.misaligned) })
      unheld q s.config.period
  · have other : ¬ s.cadence.state = .locked := by rw [holdover]; nofun
    simp only [if_neg other]
    rw [← holdover]
    exact State.openPass_unheld
      (s := { s with cadence := { errorCounted s.cadence s.config.errorLimit with missed := s.cadence.missed + 1 }
                     report := severeTold s (q - BitVec.ofNat 32 s.config.lead) })
      unheld q s.config.period

/-- R114, R115: the tracker enters LOST, and every voice ends where the lost action is END. -/
theorem State.enterLost_eq {s : State} (unheld : s.cadence.heldConfig = none) :
    s.enterLost =
      let lost : State := { s with
        cadence := { s.cadence with
          state := .lost, misaligned := false, missed := 0, timer := none, waiting := ticksAlone s.cadence.waiting
          errorOpenings := 0, errorCount := 0, severeOpenings := 0, severeCount := 0, severeRaised := false
          limitDue := false }
        report := s.report.raise (.cadenceState s.cadence.state s.cadence.misaligned .lost false) }
      match s.config.lostAction with
      | .freeze => lost
      | .finish => lost.endAllVoices := by
  rw [State.enterLost, State.trackerConfig_eq unheld, ← dropExpiry_eq]
  rfl

/-- Settles O39: the expiry waits, is covered by a pass, or is the one that loses the cadence. -/
theorem timerExpiry : Obligations.TimerExpiry := by
  refine ⟨fun s timer => ?_, fun s expiry timer before => ?_, fun s p expiry timer first pass => ?_,
    fun s q expiry noPass timer first state horizon unheld notDue => ⟨fun more unread => ?_, fun last => ?_⟩⟩
  · show execLocalPeriodTimerExpiry s = _
    rw [execLocalPeriodTimerExpiry, timer]
  · show execLocalPeriodTimerExpiry s = _
    rw [execLocalPeriodTimerExpiry, timer]
    refine if_pos (List.any_eq_true.mpr ?_)
    obtain ⟨n, mem, earlier⟩ := before
    exact ⟨n, mem, decide_eq_true earlier⟩
  · show execLocalPeriodTimerExpiry s = _
    rw [execLocalPeriodTimerExpiry, timer]
    dsimp only
    rw [Port.tickBefore_eq_false first, if_neg nofun]
    refine if_pos ?_
    show s.pass.isSome = true
    rw [pass]
    rfl
  · have judged := State.judgeExpiry_running (s := s.expireTimer expiry) unheld horizon state
    rw [if_pos (by exact more), State.coverMissed_eq (s := s.expireTimer expiry) unheld horizon state] at judged
    intro cadence u t
    have opened : u.pass = some ⟨q, 0, [], 0⟩ := rfl
    have begun := State.beginPass_begun opened
    obtain ⟨p, pass, period⟩ := begun.pass
    have run : exec .localPeriodTimerExpiry s = .next t := by
      have unread : (s.expireTimer expiry).NoneRead := unread
      rw [exec_expiry_taken noPass timer first, State.readBefore_noneRead unread, judged]
      exact congrArg (fun w : State => Host.Outcome.next w.dispatch) (State.afterEvent_opened opened)
    refine ⟨p, run, pass, period, begun.cadence, ?_, ?_, begun.config, begun.nextOrder, begun.headStore,
      begun.ringStore⟩
    · rw [begun.event _ notRendered_cadenceSevere, ← severeTold_event_severe]
      show (if _ then _ else _ : Report).event .cadenceSevere = _
      split
      · exact Report.raise_cadenceState_severe _ _ _ _ _
      · rfl
    · have untold : (severeTold s (q - BitVec.ofNat 32 s.config.lead)).event .cadenceState = s.report.event .cadenceState :=
        severeTold_event_other _ _ nofun
      rw [begun.event _ notRendered_cadenceState, ← untold]
      show (if _ then _ else _ : Report).event .cadenceState = _
      split
      · exact Report.raise_event_same _ (.cadenceState .locked s.cadence.misaligned .holdover s.cadence.misaligned)
      · rfl
  · have judged := State.judgeExpiry_running (s := s.expireTimer expiry) unheld horizon state
    rw [if_neg (by exact Nat.not_lt.mpr last), State.enterLost_eq (s := s.expireTimer expiry) unheld] at judged
    have run {u : State} (is : (s.expireTimer expiry).judgeExpiry = u) (unopened : u.pass = none)
        (still : u.cadence.limitDue = false) : exec .localPeriodTimerExpiry s = .next u.dispatch := by
      have taken : (s.expireTimer expiry).judgeExpiry.afterEvent = u := by
        rw [is]
        exact (State.afterEvent_unopened unopened).trans (State.actOnLimit_of_not_due still)
      rw [exec_expiry_taken noPass timer first, State.readBefore_unopened] <;> rw [taken]
      exact unopened
    intro cadence raised
    obtain ⟨lost, isLost⟩ : ∃ r : State, r = { s with cadence := cadence, report := raised } := ⟨_, rfl⟩
    refine ⟨fun freeze => ?_, fun finish rising => ?_⟩
    · have freeze : (s.expireTimer expiry).config.lostAction = .freeze := freeze
      rw [freeze] at judged
      exact run judged noPass rfl
    · have finish : (s.expireTimer expiry).config.lostAction = .finish := finish
      rw [finish] at judged
      have judged : (s.expireTimer expiry).judgeExpiry = lost.endAllVoices := by
        rw [judged, isLost]
        rfl
      have before : s.ChangesOnly lost [.port, .report, .cadence, .pass] := by
        rw [isLost]
        exact fun part other => by cases part <;> first | rfl | exact absurd (by decide) other
      have risingLost : Table.Rising lost.voices := by
        rw [before.voices (by decide)]
        exact rising
      have ended := lost.endAllVoices_goes.only
      have report : lost.endAllVoices.report = endedTold s raised := by
        rw [State.endAllVoices_report risingLost, endedTold, before.voices (by decide), ← endedTold, isLost]
      have keptCadence : lost.endAllVoices.cadence = cadence := (ended.cadence (by decide)).trans (by rw [isLost])
      have keptPass : lost.endAllVoices.pass = none := (ended.pass (by decide)).trans (by rw [isLost]; exact noPass)
      have keptPort : lost.endAllVoices.port = s.port := (ended.port (by decide)).trans (by rw [isLost])
      refine ⟨lost.endAllVoices, run judged keptPass (by rw [keptCadence]),
        State.endAllVoices_allEnded rising before (.refl _ _), keptCadence, keptPort, keptPass, report, ?_, ?_⟩
      · rw [report, endedTold, Report.foldl_appendEnd_event _ _ _ (by nofun)]
        exact s.report.raise_event_same (.cadenceState s.cadence.state s.cadence.misaligned .lost false)
      · rw [report, endedTold, Report.foldl_appendEnd_event _ _ _ (by nofun)]
        exact Report.raise_cadenceState_severe _ _ _ _ _

end Sys2Proof.Machine
end

section
/-! SUPPORT. The render engine's arithmetic: fold, ramps, gain and saturation (R130 to R133), and the stored frames
(R126, R129). -/

namespace Sys2Proof.Machine

/-! ### Stages 2 to 4 -/

theorem foldSum_nil (coefficients : List Int) : foldSum [] coefficients = 0 := rfl

theorem foldSum_cons (a m : Int) (samples coefficients : List Int) :
    foldSum (a :: samples) (m :: coefficients) = a * m + foldSum samples coefficients := by
  rw [foldSum, foldSum, ← List.sum_eq_foldl, ← List.sum_eq_foldl, List.zipWith_cons_cons, List.sum_cons]

theorem foldSum_eq_sum (samples coefficients : List Int) (enough : samples.length ≤ coefficients.length) :
    foldSum samples coefficients =
      ((List.range samples.length).map fun c => samples.getD c 0 * coefficients.getD c 0).sum := by
  induction samples generalizing coefficients with
  | nil => rfl
  | cons a samples ih =>
    cases coefficients with
    | nil => exact absurd enough (Nat.not_succ_le_zero _)
    | cons m coefficients =>
      rw [foldSum_cons, ih _ (Nat.le_of_succ_le_succ enough), List.length_cons, List.range_succ_eq_map, List.map_cons,
        List.map_map, List.sum_cons]
      rfl

theorem Ramp.levelAt_before {r : Ramp} {t : Int} (before : t < r.start) : r.levelAt t = 32768 := if_pos before

theorem Ramp.levelAt_offset (r : Ramp) (k : Nat) :
    r.levelAt (r.start + k) = if k < r.length then r.level * (r.length - k) / r.length else 0 := by
  have offset : (r.start + k - r.start).toNat = k := by omega
  rw [Ramp.levelAt, if_neg (by omega), offset]

/-- R132: the level lies in 0..r0. -/
theorem Ramp.levelAt_le (r : Ramp) (k : Nat) : r.levelAt (r.start + k) ≤ r.level := by
  rw [Ramp.levelAt_offset]
  split
  next inside =>
    have positive : 0 < r.length := by omega
    calc r.level * (r.length - k) / r.length
      _ ≤ r.level * r.length / r.length := Nat.div_le_div_right (Nat.mul_le_mul_left _ (Nat.sub_le _ _))
      _ = r.level := Nat.mul_div_cancel _ positive
  next => exact Nat.zero_le _

/-- R132: the level never rises. -/
theorem Ramp.levelAt_succ_le (r : Ramp) (k : Nat) : r.levelAt (r.start + (k + 1)) ≤ r.levelAt (r.start + k) := by
  have next := r.levelAt_offset (k + 1)
  rw [Int.natCast_add, Int.natCast_one] at next
  rw [next, Ramp.levelAt_offset]
  split
  next inside =>
    rw [if_pos (by omega)]
    exact Nat.div_le_div_right (Nat.mul_le_mul_left _ (by omega))
  next => exact Nat.zero_le _

theorem effectiveGain_le {gain level : Nat} (full : level ≤ 32768) : effectiveGain gain level ≤ gain := by
  have scaled : gain * level ≤ gain * 32768 := Nat.mul_le_mul_left gain full
  rw [effectiveGain]
  omega

theorem effectiveGain_full (gain : Nat) : effectiveGain gain 32768 = gain := by
  rw [effectiveGain]
  omega

theorem scaleSum_bounds (acc : Int) (gain : Nat) :
    2 ^ 29 * scaleSum acc gain ≤ acc * gain + 2 ^ 28 ∧ acc * gain + 2 ^ 28 < 2 ^ 29 * (scaleSum acc gain + 1) := by
  rw [scaleSum]
  omega

theorem saturate24_of_range {y : Int} (range : Is24Bit y) : saturate24 y = y := by
  obtain ⟨low, high⟩ := range
  rw [saturate24]
  omega

theorem saturate24_of_low {y : Int} (low : y < -8388608) : saturate24 y = -8388608 := by
  rw [saturate24]
  omega

theorem saturate24_of_high {y : Int} (high : 8388607 < y) : saturate24 y = 8388607 := by
  rw [saturate24]
  omega

theorem saturate24_eq_iff (y : Int) : saturate24 y = y ↔ Is24Bit y :=
  ⟨fun same => same ▸ saturate24_range y, saturate24_of_range⟩

theorem outputFrame_clipped (fold : Fold) (samples : List Int) (gain : Nat) :
    (outputFrame fold samples gain).clipped = true ↔
      ¬(Is24Bit (scaleSum (foldSum samples fold.left) gain) ∧ Is24Bit (scaleSum (foldSum samples fold.right) gain)) := by
  rw [outputFrame, Bool.or_eq_true, bne_iff_ne, bne_iff_ne, ne_eq, ne_eq, saturate24_eq_iff, saturate24_eq_iff]
  exact not_and_or.symm

/-- Settles O42, stage by stage. -/
theorem stages : Obligations.Stages := by
  refine ⟨foldSum_eq_sum, fun r k positive => ⟨fun inside => ?_, fun after => ?_, r.levelAt_le k, r.levelAt_succ_le k⟩,
    fun r t => ⟨rfl, Ramp.levelAt_before, fun _ => rfl⟩,
    fun gain level full => ⟨rfl, effectiveGain_le full, effectiveGain_full gain⟩, fun fold samples gain => ?_⟩
  · rw [Ramp.levelAt_offset, if_pos inside]
  · rw [Ramp.levelAt_offset, if_neg (Nat.not_lt.mpr after)]
  · exact ⟨scaleSum_bounds _ _, ⟨saturate24_range _, saturate24_range _⟩, saturate24_of_range, saturate24_of_low,
      saturate24_of_high, saturate24_of_range, saturate24_of_low, saturate24_of_high, outputFrame_clipped _ _ _⟩

theorem scaleSum_zero (gain : Nat) : scaleSum 0 gain = 0 := by
  rw [scaleSum, Int.zero_mul]
  rfl

theorem outputFrame_nil (fold : Fold) (gain : Nat) :
    outputFrame fold [] gain = { left := 0, right := 0, clipped := false } := by
  rw [outputFrame, foldSum_nil, foldSum_nil, scaleSum_zero]
  rfl

/-! ### Stored samples -/

theorem ofLE_cons (b : Byte) (l : List Byte) : ofLE (b :: l) = ofLE l * 256 + b.toNat := by
  rw [ofLE, List.reverse_cons, ofBE_append_byte, ← ofLE]

/-- The weight of byte `i` of `n` in a byte order. -/
def byteWeight (order : ByteOrder) (n i : Nat) : Nat :=
  match order with
  | .le => 256 ^ i
  | .be => 256 ^ (n - 1 - i)

theorem ofLE_range (f : Nat → Byte) (n : Nat) :
    ofLE ((List.range n).map f) = ((List.range n).map fun i => (f i).toNat * 256 ^ i).sum := by
  induction n generalizing f with
  | zero => rfl
  | succ n ih =>
    have shifted : ((List.range n).map fun i => (f (i + 1)).toNat * 256 ^ (i + 1)).sum =
        ((List.range n).map fun i => (f (i + 1)).toNat * 256 ^ i).sum * 256 := by
      rw [← List.sum_map_mul_right]
      exact congrArg List.sum (List.map_congr_left fun i _ => by rw [Nat.pow_succ, Nat.mul_assoc])
    rw [List.range_succ_eq_map, List.map_cons, List.map_map, ofLE_cons, List.map_cons, List.map_map, List.sum_cons]
    have tail := ih (f ∘ Nat.succ)
    rw [tail, pow_zero, Nat.mul_one, Nat.add_comm]
    exact congrArg _ shifted.symm

theorem ofBE_range (f : Nat → Byte) (n : Nat) :
    ofBE ((List.range n).map f) = ((List.range n).map fun i => (f i).toNat * 256 ^ (n - 1 - i)).sum := by
  induction n with
  | zero => rfl
  | succ n ih =>
    have shifted : ((List.range n).map fun i => (f i).toNat * 256 ^ (n + 1 - 1 - i)).sum =
        ((List.range n).map fun i => (f i).toNat * 256 ^ (n - 1 - i)).sum * 256 := by
      rw [← List.sum_map_mul_right]
      refine congrArg List.sum (List.map_congr_left fun i mem => ?_)
      have inside := List.mem_range.mp mem
      rw [Nat.mul_assoc, ← Nat.pow_succ]
      congr 2
      omega
    have last : n + 1 - 1 - n = 0 := by omega
    rw [List.range_succ, List.map_append, List.map_append, List.sum_append, shifted, ← ih, List.map_singleton,
      List.map_singleton, ofBE_append_byte, List.sum_singleton, last, pow_zero, Nat.mul_one]

/-- R129: the number that a channel sample's bytes spell in the byte order of the entry. -/
theorem rawSample_range (order : ByteOrder) (f : Nat → Byte) (n : Nat) :
    rawSample order ((List.range n).map f) = ((List.range n).map fun i => (f i).toNat * byteWeight order n i).sum := by
  cases order with
  | le => exact ofLE_range f n
  | be => exact ofBE_range f n

theorem rawSample_lt (order : ByteOrder) (bytes : List Byte) : rawSample order bytes < 256 ^ bytes.length := by
  cases order with
  | le => exact bytes.length_reverse ▸ ofBE_lt bytes.reverse
  | be => exact ofBE_lt bytes

/-- A channel sample of `n` bytes in two's complement. -/
theorem signed_bytes {n : Nat} (some : 0 < n) (x : Nat) :
    signed (8 * n) x = if 2 * x < 256 ^ n then (x : Int) else (x : Int) - ((256 ^ n : Nat) : Int) := by
  have size : 2 ^ (8 * n) = 256 ^ n := by rw [Nat.pow_mul]
  have half : 2 * 2 ^ (8 * n - 1) = 256 ^ n := by
    rw [← size, ← Nat.pow_succ']
    congr 1
    omega
  rw [signed, size]
  exact if_congr (by omega) rfl rfl

theorem signed_range {n x : Nat} (some : 0 < n) (below : x < 256 ^ n) :
    -((256 ^ n : Nat) : Int) ≤ 2 * signed (8 * n) x ∧ 2 * signed (8 * n) x < ((256 ^ n : Nat) : Int) := by
  rw [signed_bytes some]
  split <;> omega

/-- R126, R129: the channel samples of a stored frame. -/
theorem frameChannels_eq (m : Memory) (start : Nat) (e : SampleEntry) :
    frameChannels m start e = storedFrame m start e := by
  refine List.map_congr_left fun c _ => ?_
  unfold Memory.readBlock convertSample
  rw [rawSample_range]
  cases e.format with
  | s16 => exact congrArg (· * 256) (signed_bytes (n := 2) (by decide) _)
  | s24 => exact signed_bytes (n := 3) (by decide) _
  | s32 => exact congrArg (fun x => min ((x + 128) / 256) 8388607) (signed_bytes (n := 4) (by decide) _)

theorem convertSample_range (format : SampleFormat) (order : ByteOrder) (bytes : List Byte)
    (length : bytes.length = formatBytes format) : Is24Bit (convertSample format order bytes) := by
  have below := rawSample_lt order bytes
  rw [length] at below
  unfold Is24Bit convertSample
  cases format with
  | s16 =>
    have range : -65536 ≤ 2 * signed 16 (rawSample order bytes) ∧ 2 * signed 16 (rawSample order bytes) < 65536 :=
      signed_range (n := 2) (by decide) below
    dsimp only
    omega
  | s24 =>
    have range : -16777216 ≤ 2 * signed 24 (rawSample order bytes) ∧ 2 * signed 24 (rawSample order bytes) < 16777216 :=
      signed_range (n := 3) (by decide) below
    dsimp only
    omega
  | s32 =>
    have range : -4294967296 ≤ 2 * signed 32 (rawSample order bytes) ∧ 2 * signed 32 (rawSample order bytes) < 4294967296 :=
      signed_range (n := 4) (by decide) below
    dsimp only
    omega

theorem storedFrame_range (m : Memory) (start : Nat) (e : SampleEntry) : ∀ y ∈ storedFrame m start e, Is24Bit y := by
  intro y mem
  rw [← frameChannels_eq, frameChannels] at mem
  obtain ⟨c, -, rfl⟩ := List.mem_map.mp mem
  exact convertSample_range _ _ _ (by rw [Memory.readBlock, List.length_map, List.length_range])

/-! ### Where each frame comes from -/

theorem State.frameAt_before (s : State) (v : Nat) (x : Voice) (e : SampleEntry) {t : Int} (before : t < 0) :
    s.frameAt v x e t = some [] := if_pos before

theorem State.frameAt_pastEnd (s : State) (v : Nat) (x : Voice) (e : SampleEntry) {n : Nat}
    (past : framePastEnd x e n = true) : s.frameAt v x e n = some [] := by
  rw [State.frameAt, if_neg (by omega), Int.toNat_natCast]
  exact if_pos past

theorem State.frameAt_head {s : State} {v : Nat} {x : Voice} {e : SampleEntry} {n : Nat}
    (inside : framePastEnd x e n = false) (head : n / 1024 < x.headChunks) :
    s.frameAt v x e n = some (storedFrame s.headStore (e.pageBase * 65536 + sourceFrame x e n * e.stride) e) := by
  rw [State.frameAt, if_neg (by omega), Int.toNat_natCast, ← frameChannels_eq]
  exact (if_neg (by rw [inside]; nofun)).trans (if_pos head)

theorem State.frameAt_ring {s : State} {v : Nat} {x : Voice} {e : SampleEntry} {n : Nat}
    (inside : framePastEnd x e n = false) (ring : x.headChunks ≤ n / 1024) :
    s.frameAt v x e n =
      match s.slot? v ((n / 1024 - x.headChunks) % 8) with
      | none => none
      | some slot =>
        if slot.state = .full ∧ slot.chunk = n / 1024 then
          some (storedFrame s.ringStore
            ((8 * v + (n / 1024 - x.headChunks) % 8) * 32768 + (n - n / 1024 * 1024) * e.stride) e)
        else none := by
  rw [State.frameAt, if_neg (by omega), Int.toNat_natCast, ← frameChannels_eq]
  exact (if_neg (by rw [inside]; nofun)).trans (if_neg (Nat.not_lt.mpr ring))

/-- R126, R127: a frame inside the sample: of a head chunk, of a FULL slot with its chunk, or silent. -/
theorem State.frameAt_inside {s : State} {v : Nat} {x : Voice} {e : SampleEntry} {n : Nat}
    (inside : framePastEnd x e n = false) :
    (n / 1024 < x.headChunks →
      s.frameAt v x e n = some (storedFrame s.headStore (e.pageBase * 65536 + sourceFrame x e n * e.stride) e)) ∧
    (x.headChunks ≤ n / 1024 →
      (∀ slot, s.slot? v ((n / 1024 - x.headChunks) % 8) = some slot → slot.state = .full → slot.chunk = n / 1024 →
        s.frameAt v x e n = some (storedFrame s.ringStore
          ((8 * v + (n / 1024 - x.headChunks) % 8) * 32768 + (n - n / 1024 * 1024) * e.stride) e)) ∧
      ((∀ slot, s.slot? v ((n / 1024 - x.headChunks) % 8) = some slot → slot.state ≠ .full ∨ slot.chunk ≠ n / 1024) →
        s.frameAt v x e n = none)) := by
  refine ⟨State.frameAt_head inside, fun ring => ⟨fun slot held full chunk => ?_, fun silent => ?_⟩⟩ <;>
    rw [State.frameAt_ring inside ring]
  · rw [held]
    exact if_pos ⟨full, chunk⟩
  · split
    · rfl
    next slot held =>
      refine if_neg fun ⟨full, chunk⟩ => ?_
      rcases silent slot held with other | other
      · exact other full
      · exact other chunk

theorem framePastEnd_noLoop {x : Voice} {e : SampleEntry} (none : loopOf x e = none) (n : Nat) :
    framePastEnd x e n = decide (e.frames ≤ x.sourceOffset + n) ∧ sourceFrame x e n = x.sourceOffset + n := by
  rw [framePastEnd, sourceFrame, none]
  exact ⟨rfl, rfl⟩

theorem framePastEnd_loop {x : Voice} {e : SampleEntry} {l : SampleLoop} (loop : loopOf x e = some l) (n : Nat) :
    framePastEnd x e n = false ∧
      sourceFrame x e n = if x.sourceOffset + n < l.stop then x.sourceOffset + n
        else l.start + (x.sourceOffset + n - l.stop) % (l.stop - l.start) := by
  rw [framePastEnd, sourceFrame, loop]
  exact ⟨rfl, rfl⟩

/-- The frame indices of a block, as the integers that are added to its emit position. -/
theorem castIndices (l : List Nat) : (do let i ← l; pure (i : Int)) = l.map (Nat.cast : Nat → Int) :=
  (List.map_eq_flatMap ..).symm

/-- Settles O41: the source of each frame, and the block made of them. -/
theorem frameSources : Obligations.FrameSources := by
  refine ⟨fun s v x e => ⟨fun t => s.frameAt_before v x e, fun n => ⟨fun unlooped => ?_, fun l applies loop => ?_⟩⟩,
    storedFrame_range, outputFrame_nil, fun s v x e => ?_⟩
  · have none : loopOf x e = none := by
      rw [loopOf]
      rcases unlooped with off | absent
      · rw [off]
        rfl
      · rw [absent, ite_self]
    obtain ⟨past, source⟩ := framePastEnd_noLoop none n
    refine ⟨fun behind => s.frameAt_pastEnd v x e (past.trans (decide_eq_true behind)), fun before => ?_⟩
    rw [← source]
    exact State.frameAt_inside (past.trans (decide_eq_false (Nat.not_le.mpr before)))
  · have some : loopOf x e = some l := by rw [loopOf, applies, if_pos rfl, loop]
    obtain ⟨inside, source⟩ := framePastEnd_loop some n
    refine ⟨fun before => ?_, fun behind => ?_⟩
    · rw [if_pos before] at source
      rw [← source]
      exact State.frameAt_inside inside
    · rw [if_neg (Nat.not_lt.mpr behind)] at source
      rw [← source]
      exact State.frameAt_inside inside
  · intro rendered source out
    have frames : rendered.frames = (List.range s.config.period).map fun i => ((out i).left, (out i).right) := by
      show List.map _ (List.map _ (List.map _ _)) = _
      rw [castIndices, List.map_map, List.map_map, List.map_map]
      rfl
    refine ⟨?_, fun i inside => ?_, ?_, ?_⟩
    · rw [frames, List.length_map, List.length_range]
    · rw [frames, List.getElem?_map, List.getElem?_range inside]
      rfl
    · show (List.filter _ (List.map _ _)).length = _
      rw [castIndices, List.map_map, List.filter_map, List.length_map]
      rfl
    · show List.any _ _ = true ↔ _
      rw [castIndices, List.map_map, List.map_map, List.any_map, List.any_eq_true]
      exact exists_congr fun i => and_congr_left fun _ => List.mem_range

end Sys2Proof.Machine
end

section
/-! SUPPORT. What happens inside a block (R123, R134 to R137), and its quiet suppression (R138 to R142). -/

namespace Sys2Proof.Machine

/-! ### The record that a block makes -/

theorem loopInForce_eq (x : Voice) (e : SampleEntry) : loopOf x e = loopInForce x e := rfl

/-- R137: the first frame past the end lies behind the release point. -/
theorem endIndex_all (period : Nat) (x : Voice) (e : SampleEntry) {p : Int} (start : x.emit ≤ p)
    (inside : p < x.emit + period) :
    (endIndex period x e).all (fun j => decide (p - x.emit < j)) = true ↔
      (loopInForce x e).isSome = true ∨ p < (e.frames : Int) - x.sourceOffset := by
  rw [endIndex, loopInForce_eq]
  cases loopInForce x e with
  | some l => simp
  | none =>
    dsimp only
    split
    next ends =>
      show decide (p - x.emit < (((e.frames : Int) - x.sourceOffset - x.emit).toNat : Int)) = true ↔ _
      rw [decide_eq_true_eq, Option.isSome_none, Bool.false_eq_true, false_or]
      omega
    next runs =>
      exact iff_of_true rfl (Or.inr (by omega))

/-- R134: when the block reaches the release point. -/
theorem releaseReached_eq (period : Nat) (x : Voice) (e : SampleEntry) :
    releaseReached period x e =
      match x.releasePoint with
      | none => none
      | some p =>
        if x.state = .playing ∧ x.emit ≤ p ∧ p < x.emit + period ∧
            ((loopInForce x e).isSome = true ∨ p < (e.frames : Int) - x.sourceOffset) then some p
        else none := by
  rw [releaseReached]
  cases x.releasePoint with
  | none => rfl
  | some p =>
    exact if_congr (and_congr_right fun _ => and_congr_right fun start => and_congr_right fun inside =>
      endIndex_all period x e start inside) rfl rfl

/-- R123, R134: the record as its block makes it. -/
theorem enterBlock_eq (period : Nat) (x : Voice) (e : SampleEntry) : enterBlock period x e = blockRecord period x e := by
  have reaches := releaseReached_eq period { x with state := if x.state = .pending then .playing else x.state } e
  rw [enterBlock, blockRecord]
  dsimp only at reaches ⊢
  cases point : x.releasePoint with
  | none =>
    rw [point] at reaches
    rw [reaches]
  | some p =>
    rw [point] at reaches
    by_cases reached : (if x.state = .pending then VoiceState.playing else x.state) = .playing ∧ x.emit ≤ p ∧
        p < x.emit + period ∧ ((loopInForce x e).isSome = true ∨ p < (e.frames : Int) - x.sourceOffset)
    · rw [reaches.trans (if_pos reached)]
      exact (if_pos reached).symm
    · rw [reaches.trans (if_neg reached)]
      exact (if_neg reached).symm

/-! ### How a block ends its voice -/

theorem endIndex_eq_some {period : Nat} {y : Voice} {e : SampleEntry} {j : Nat} :
    endIndex period y e = some j ↔
      loopInForce y e = none ∧ (e.frames : Int) - y.sourceOffset - y.emit < period ∧
        j = ((e.frames : Int) - y.sourceOffset - y.emit).toNat := by
  rw [endIndex, loopInForce_eq]
  cases loopInForce y e with
  | some l => simp
  | none => simp [eq_comm]

theorem runOutIndex_eq_some {period : Nat} {y : Voice} {u : Nat} :
    runOutIndex period y = some u ↔
      ∃ r, y.ramp = some r ∧ r.start + r.length - 1 = y.emit + u ∧ u < period := by
  rw [runOutIndex]
  cases y.ramp with
  | none => simp
  | some r =>
    dsimp only
    split
    next inside =>
      constructor
      · intro h
        obtain rfl := Option.some.inj h
        exact ⟨r, rfl, by omega, by omega⟩
      · rintro ⟨r', ⟨⟩, out, before⟩
        congr 1
        omega
    next outside =>
      constructor
      · nofun
      · rintro ⟨r', ⟨⟩, out, before⟩
        exact absurd (by omega) outside

theorem rampReason_eq {y : Voice} {r : Ramp} (ramp : y.ramp = some r) :
    rampReason y = match r.kind with
      | .release => .released
      | .stop => .stopped := by
  rw [rampReason, ramp] <;> rfl

/-- Settles O43: the record, and the earlier of the sample end and the ramp's. -/
theorem blockEnds : Obligations.BlockEnds := by
  refine ⟨enterBlock_eq, fun period y e => ⟨fun j ends first => ?_, fun r u out first => ?_, fun noEnd noRamp => ?_⟩,
    fun period level y e long ramp => ?_⟩
  · have index : endIndex period y e = some j := endIndex_eq_some.mpr ends
    rw [blockEnding, index]
    cases run : runOutIndex period y with
    | none => rfl
    | some u =>
      obtain ⟨r, out⟩ := runOutIndex_eq_some.mp run
      exact if_pos (first r u out)
  · have run : runOutIndex period y = some u := runOutIndex_eq_some.mpr ⟨r, out⟩
    obtain ⟨ramp, -⟩ := out
    rw [blockEnding, run, rampReason_eq ramp]
    cases index : endIndex period y e with
    | none => rfl
    | some j => exact if_neg (Nat.not_le.mpr (first j (endIndex_eq_some.mp index)))
  · have index : endIndex period y e = none :=
      Option.eq_none_iff_forall_ne_some.mpr fun j h => noEnd j (endIndex_eq_some.mp h)
    have run : runOutIndex period y = none := Option.eq_none_iff_forall_ne_some.mpr fun u h => by
      obtain ⟨r, out⟩ := runOutIndex_eq_some.mp h
      exact noRamp r u out
    rw [blockEnding, index, run]
  · have run : runOutIndex period y = some 63 := runOutIndex_eq_some.mpr ⟨_, ramp, by dsimp only; omega, by omega⟩
    rw [blockEnding, run]
    cases endIndex period y e with
    | none => rfl
    | some j =>
      dsimp only
      split <;> rfl

/-! ### Quiet suppression -/

theorem isQuietBlock_iff (floor : Nat) (r : Rendered) :
    isQuietBlock floor r = true ↔
      r.silent = 0 ∧ ∀ f ∈ r.frames, f.1.natAbs ≤ floor ∧ f.2.natAbs ≤ floor := by
  rw [isQuietBlock, Bool.and_eq_true, beq_iff_eq, List.all_eq_true]
  simp only [Bool.and_eq_true, decide_eq_true_eq]

/-- R141: the disposition of a block that is not judged. -/
def unjudged (y : Voice) : Disposition :=
  { sent := true, quietEnter := false, resume := false, count := y.quietCount, quiet := y.quiet, tail := false }

theorem dispose_unjudged {c : Configuration} {y : Voice} {r : Rendered} {ending : Option BlockEnding}
    (which : ending.isSome = true ∨ c.quietRun = 0) : dispose c y r ending = unjudged y := by
  refine if_pos ?_
  rw [Bool.or_eq_true, beq_iff_eq]
  exact which

theorem dispose_judged {c : Configuration} (y : Voice) (r : Rendered) (running : 0 < c.quietRun) :
    dispose c y r none = suppress c.quietRun y (isQuietBlock c.quietFloor r) := by
  refine if_neg ?_
  rw [Option.isSome_none, Bool.false_or, beq_iff_eq]
  omega

/-- R138 to R141: what becomes of a block. -/
theorem dispose_cases (c : Configuration) (y : Voice) (r : Rendered) (running : 0 < c.quietRun) :
    let d := dispose c y r none
    let quiet := r.silent = 0 ∧ ∀ f ∈ r.frames, f.1.natAbs ≤ c.quietFloor ∧ f.2.natAbs ≤ c.quietFloor
    let kept := unjudged y
    (y.quiet = .audible →
      (¬quiet → d = { kept with count := 0 }) ∧
      (quiet → y.quietCount + 1 < c.quietRun → d = { kept with count := y.quietCount + 1 }) ∧
      (quiet → c.quietRun ≤ y.quietCount + 1 →
        (y.state = .releasing → d = { kept with count := y.quietCount + 1, tail := true }) ∧
        (y.state ≠ .releasing →
          d = { kept with count := y.quietCount + 1, quietEnter := true, quiet := .quiet }))) ∧
    (y.quiet = .quiet →
      (¬quiet → d = { kept with count := 0, resume := true, quiet := .audible }) ∧
      (quiet → y.state = .releasing → d = { kept with tail := true }) ∧
      (quiet → y.state ≠ .releasing → d = { kept with sent := false })) := by
  intro d quiet kept
  have judged : d = suppress c.quietRun y (isQuietBlock c.quietFloor r) := dispose_judged y r running
  rw [judged]
  have loud (h : ¬quiet) : isQuietBlock c.quietFloor r = false :=
    Bool.eq_false_iff.mpr fun k => h ((isQuietBlock_iff _ _).mp k)
  have still (h : quiet) : isQuietBlock c.quietFloor r = true := (isQuietBlock_iff _ _).mpr h
  unfold suppress kept unjudged
  refine ⟨fun audible => ?_, fun silent => ?_⟩
  · rw [audible]
    refine ⟨fun h => ?_, fun h below => ?_, fun h reached => ⟨fun releasing => ?_, fun other => ?_⟩⟩
    · rw [loud h]
      rfl
    · rw [still h]
      exact if_pos below
    · rw [still h]
      exact (if_neg (Nat.not_lt.mpr reached)).trans (if_pos releasing)
    · rw [still h]
      exact (if_neg (Nat.not_lt.mpr reached)).trans (if_neg other)
  · rw [silent]
    refine ⟨fun h => ?_, fun h releasing => ?_, fun h other => ?_⟩
    · rw [loud h]
      rfl
    · rw [still h]
      exact if_pos releasing
    · rw [still h]
      exact if_neg other

/-- What the flags of a disposition say of the quiet state before and after, `ended` when the block ends its voice. -/
structure Disposition.Flags (d : Disposition) (before : QuietState) (ended : Bool) : Prop where
  enters  : d.quietEnter = true ↔ before = .audible ∧ d.quiet = .quiet
  resumes : d.resume = true ↔ before = .quiet ∧ d.quiet = .audible
  sent    : ended = true ∨ d.tail = true → d.sent = true ∧ d.quietEnter = false

theorem unjudged_flags (y : Voice) (ended : Bool) : (unjudged y).Flags y.quiet ended := by
  refine ⟨⟨nofun, fun ⟨audible, quiet⟩ => ?_⟩, ⟨nofun, fun ⟨quiet, audible⟩ => ?_⟩, fun _ => ⟨rfl, rfl⟩⟩
  · cases audible.symm.trans quiet
  · cases quiet.symm.trans audible

theorem suppress_flags (quietRun : Nat) (y : Voice) (quiet : Bool) : (suppress quietRun y quiet).Flags y.quiet false := by
  unfold suppress
  cases y.quiet with
  | audible =>
    dsimp only
    split
    · exact ⟨by simp, by simp, by simp⟩
    · split
      · exact ⟨by simp, by simp, by simp⟩
      · split <;> exact ⟨by simp, by simp, by simp⟩
  | quiet =>
    dsimp only
    split
    · exact ⟨by simp, by simp, by simp⟩
    · split <;> exact ⟨by simp, by simp, by simp⟩

theorem dispose_flags (c : Configuration) (y : Voice) (r : Rendered) (ending : Option BlockEnding) :
    (dispose c y r ending).Flags y.quiet ending.isSome := by
  by_cases which : ending.isSome = true ∨ c.quietRun = 0
  · rw [dispose_unjudged which]
    exact unjudged_flags y _
  · rw [not_or, Option.not_isSome_iff_eq_none] at which
    obtain ⟨rfl, running⟩ := which
    rw [dispose_judged y r (Nat.pos_of_ne_zero running)]
    exact suppress_flags _ _ _

/-- Settles O44: the disposition, case by case, and the block's flags. -/
theorem quietSuppression : Obligations.QuietSuppression := by
  intro c x y r ending
  obtain ⟨enters, resumes, sent⟩ := dispose_flags c y r ending
  refine ⟨dispose_unjudged, fun none running => ?_, rfl, rfl, rfl, rfl, beq_iff_eq, ?_, ?_, bne_iff_ne, Iff.rfl, enters,
    resumes, Bool.or_eq_true _ _ ▸ Iff.rfl, fun last => sent (Bool.or_eq_true _ _ ▸ last)⟩
  · rw [none]
    exact dispose_cases c y r running
  · show (x.state == .pending && x.late) = true ↔ _
    rw [Bool.and_eq_true, beq_iff_eq]
  · show (x.state != .releasing && y.state == .releasing) = true ↔ _
    rw [Bool.and_eq_true, bne_iff_ne, beq_iff_eq]

end Sys2Proof.Machine
end

section
/-! SUPPORT. Slots and lanes written and read back, what asking for a chunk makes of its slot (R70, R73, R82), and the
resolution of a read that completed (R77, R90). -/

namespace Sys2Proof.Machine

/-! ### Lanes -/

theorem PerLane.set_set {α : Type} (p : PerLane α) (l : LaneId) (a b : α) :
    PerLane.set (PerLane.set p l a) l b = PerLane.set p l b := by
  cases l <;> rfl

theorem PerLane.set_get {α : Type} (p : PerLane α) (l : LaneId) : PerLane.set p l (PerLane.get p l) = p := by
  cases l <;> rfl

theorem State.setLane_lane (s : State) (l : LaneId) : s.setLane l (s.lane l) = s :=
  congrArg s.setLanes (PerLane.set_get _ _)

theorem State.setLane_setLane (s : State) (l : LaneId) (x y : Lane) : (s.setLane l x).setLane l y = s.setLane l y :=
  congrArg s.setLanes (PerLane.set_set _ _ _ _)

theorem State.lane_setLane_same (s : State) (l : LaneId) (x : Lane) : (s.setLane l x).lane l = x := by
  rw [State.lane_setLane, if_pos rfl]

/-- R70: entries placed in a lane's queue one after the other. -/
theorem State.foldl_enqueue {α : Type} (f : α → QueueEntry) (s : State) (l : LaneId) (rows : List α) :
    rows.foldl (fun r a => r.enqueue l (f a)) s =
      s.setLane l { s.lane l with queue := (rows.map f).foldl queueInsert (s.lane l).queue } := by
  induction rows generalizing s with
  | nil => exact (s.setLane_lane l).symm
  | cons a rows ih =>
    have placed : (s.enqueue l (f a)).lane l = { s.lane l with queue := queueInsert (s.lane l).queue (f a) } :=
      s.lane_setLane_same l _
    rw [List.foldl_cons, ih, placed, State.enqueue, State.setLane_setLane]
    rfl

/-! ### Slots -/

/-- R62: the slots of two records share no place in the table. -/
theorem slotIndex_inj {v w i j : Nat} (hi : i < 8) (hj : j < 8) (same : slotIndex v i = slotIndex w j) :
    v = w ∧ i = j := by
  rw [slotIndex, slotIndex] at same
  omega

theorem State.slot?_putSlot (s : State) (v j : Nat) (x : Slot) (w i : Nat) :
    (s.putSlot v j x).slot? w i = if slotIndex w i = slotIndex v j then some x else s.slot? w i :=
  Table.get?_insert ..

theorem State.slot?_clearSlot (s : State) (v j w i : Nat) :
    (s.clearSlot v j).slot? w i = if slotIndex w i = slotIndex v j then none else s.slot? w i :=
  Table.get?_erase ..

/-! ### A chunk asked of its slot -/

/-- R73, R82: a slot takes a chunk. -/
theorem State.setUpChunk_eq (s : State) (v j : Nat) (x : Voice) (e : SampleEntry) (k : Nat) :
    s.setUpChunk v j x e k = chunkTaken s v j x e k := by
  rw [State.setUpChunk, chunkTaken]
  refine if_congr Iff.rfl rfl ?_
  rw [State.enqueueParts, State.foldl_enqueue]
  rfl

/-! ### A completion that carries its read's data -/

theorem fitData_eq {n units : Nat} {data : List Byte} (fits : data.length = units * 4096) :
    fitData n units data = data := by
  have none : units * unitBytes - data.length = 0 := by
    rw [unitBytes]
    omega
  rw [fitData, none, List.take_of_length_le (by rw [fits]; exact Nat.le_refl _)]
  exact List.append_nil data

theorem State.useMissing_eq {s : State} {units : Nat} {data : List Byte} (fits : data.length = units * 4096) :
    s.useMissing units data = s :=
  if_neg (by rw [fits]; exact Nat.lt_irrefl _)

/-- R90, R92: the number FREE, and the read resolved with its data. -/
theorem exec_readCompletion_ok {s : State} {l : LaneId} {n : Fin 32} {data : List Byte} {owner : ReadOwner}
    {address units timer : Nat} (online : (s.lane l).state ≠ .offline)
    (busy : Table.get? (s.lane l).reads n = some (.busy owner address units timer))
    (fits : data.length = units * 4096) :
    exec (.readCompletion l n .ok data) s = .next ((s.releaseNumber l n none).resolveOk l owner data).dispatch := by
  show execReadCompletion l n .ok data s = _
  rw [execReadCompletion, if_neg online, busy]
  dsimp only
  rw [fitData_eq fits, State.useMissing_eq fits]

theorem exec_readCompletion_stale {s : State} {l : LaneId} {n : Fin 32} {hold : Nat}
    (online : (s.lane l).state ≠ .offline) (stale : Table.get? (s.lane l).reads n = some (.stale hold))
    (status : ReadStatus) (data : List Byte) :
    exec (.readCompletion l n status data) s = .next (s.releaseNumber l n none).dispatch := by
  show execReadCompletion l n status data s = _
  rw [execReadCompletion, if_neg online, stale]

theorem exec_readCompletion_free {s : State} {l : LaneId} {n : Fin 32} (free : Table.get? (s.lane l).reads n = none)
    (status : ReadStatus) (data : List Byte) : exec (.readCompletion l n status data) s = .next s := by
  show execReadCompletion l n status data s = _
  rw [execReadCompletion, free]
  exact ite_self _

theorem exec_readCompletion_offline {s : State} {l : LaneId} (offline : (s.lane l).state = .offline) (n : Fin 32)
    (status : ReadStatus) (data : List Byte) : exec (.readCompletion l n status data) s = .next s := by
  show execReadCompletion l n status data s = _
  rw [execReadCompletion, if_pos offline]

/-- Settles O49: STALE and FREE numbers, and the end of an error window. -/
theorem laneTimers : Obligations.LaneTimers := by
  refine ⟨fun s l n status data => ⟨fun hold stale => ⟨?_, fun online => ?_⟩,
    fun offline => exec_readCompletion_offline offline n status data,
    fun free => ⟨exec_readCompletion_free free status data, ?_⟩⟩, fun s l => ⟨fun stopped => ?_, fun running => ?_⟩⟩
  · show execStaleHoldExpiry l n s = _
    rw [execStaleHoldExpiry, stale]
    rfl
  · exact exec_readCompletion_stale online stale status data
  · show execStaleHoldExpiry l n s = _
    rw [execStaleHoldExpiry, free]
  · show execErrorWindowEnd l s = _
    rw [execErrorWindowEnd, stopped]
  · obtain ⟨ms, window⟩ := Option.isSome_iff_exists.mp running
    show execErrorWindowEnd l s = _
    rw [execErrorWindowEnd, window]
    dsimp only
    by_cases recovers : (s.lane l).state = .errored ∧ (s.lane l).errors = 0
    · rw [if_pos recovers, if_pos recovers]
      obtain ⟨-, none⟩ := recovers
      rw [← none]
      rfl
    · rw [if_neg recovers, if_neg recovers]
      rfl

/-! ### The read of a ring part -/

theorem State.streamOk_eq {s : State} {v j : Nat} {slot : Slot} (held : s.slot? v j = some slot) (p : Nat)
    (data : List Byte) :
    s.streamOk v j p data =
      match slot.state with
      | .inFlight => s.fillPart v j p slot data
      | .draining => s.drainRead v j p slot
      | .lost => s.countLostRead v j p slot
      | .queued => s
      | .full => s := by
  rw [State.streamOk, held] <;> rfl

/-- R82: the last read of a DRAINING slot resolves, without a successor. -/
theorem State.drainRead_empty {s : State} {v j p : Nat} {slot : Slot} (last : slot.outstanding ≤ 1)
    (none : slot.successor = none) : s.drainRead v j p slot = s.clearSlot v j := by
  rw [State.drainRead, if_pos last, none]
  rfl

/-- R82: the last read of a DRAINING slot resolves, with a successor. -/
theorem State.drainRead_successor {s : State} {v j p k : Nat} {slot : Slot} {x : Voice} {e : SampleEntry}
    (last : slot.outstanding ≤ 1) (successor : slot.successor = some k) (voice : s.voice? v = some x)
    (entry : s.entry? x.handle = some e) : s.drainRead v j p slot = chunkTaken s v j x e k := by
  rw [State.drainRead, if_pos last, successor, ← State.setUpChunk_eq]
  unfold State.resolveDrained
  rw [voice]
  dsimp only
  rw [State.entryOf?, entry]

theorem State.drainRead_counted {s : State} {v j p : Nat} {slot : Slot} (more : 1 < slot.outstanding) :
    s.drainRead v j p slot = s.countLostRead v j p slot := by
  rw [State.drainRead, if_neg (Nat.not_le.mpr more)]
  rfl

/-- R77: an IN_FLIGHT slot takes its part's bytes. -/
theorem State.fillPart_eq {s : State} {v j p : Nat} {slot : Slot} {x : Voice} {e : SampleEntry} {part : PartRange}
    (voice : s.voice? v = some x) (entry : s.entry? x.handle = some e)
    (range : (chunkParts x e slot.chunk)[p]? = some part) (data : List Byte) :
    s.fillPart v j p slot data =
      { s with slots := Table.insert s.slots (8 * v + j)
                 { slot with marks := slot.marks.set p .filled, outstanding := slot.outstanding - 1,
                             state := if ∀ m ∈ slot.marks.set p .filled, m = PartMark.filled then .full
                                      else .inFlight },
               ringStore := Memory.write s.ringStore ((8 * v + j) * 32768 + part.position * e.stride)
                 (partBytes e part data) } := by
  have all : (slot.marks.set p .filled).all (fun m => m == .filled) = true ↔
      ∀ m ∈ slot.marks.set p .filled, m = PartMark.filled := by
    rw [List.all_eq_true]
    exact forall₂_congr fun m _ => beq_iff_eq
  rw [State.fillPart, voice]
  dsimp only
  rw [State.entryOf?, entry]
  dsimp only
  rw [range]
  dsimp only
  rw [if_congr all rfl rfl]
  rfl

/-- Settles O46, by the state of the slot. -/
theorem streamReadFills : Obligations.StreamReadFills := by
  refine ⟨fun s l n data v j p address units timer slot online busy fits held => ?_,
    fun s l n data v j p address units timer slot x e part online busy fits held inFlight voice entry range => ?_⟩
  all_goals
    have run := exec_readCompletion_ok online busy fits
    have held : (s.releaseNumber l n none).slot? v j = some slot := held
    have resolved := State.streamOk_eq held p data
  · refine ⟨fun lost => ?_, fun draining more => ?_, fun draining last none => ?_,
      fun k x e draining last successor voice entry => ?_⟩
    · rw [lost] at resolved
      exact run.trans (congrArg (fun t : State => Host.Outcome.next t.dispatch) resolved)
    · rw [draining] at resolved
      exact run.trans (congrArg (fun t : State => Host.Outcome.next t.dispatch)
        (resolved.trans (State.drainRead_counted more)))
    · rw [draining] at resolved
      exact run.trans (congrArg (fun t : State => Host.Outcome.next t.dispatch)
        (resolved.trans (State.drainRead_empty last none)))
    · rw [draining] at resolved
      exact run.trans (congrArg (fun t : State => Host.Outcome.next t.dispatch)
        (resolved.trans (State.drainRead_successor (s := s.releaseNumber l n none) last successor voice entry)))
  · rw [inFlight] at resolved
    refine ⟨?_, fun i inside => Memory.read_write_inside _ _ _ _ inside, fun a outside => ?_⟩
    · exact run.trans (congrArg (fun t : State => Host.Outcome.next t.dispatch)
        (resolved.trans (State.fillPart_eq (s := s.releaseNumber l n none) voice entry range data)))
    · exact Memory.read_write_outside _ _ _ _ outside

end Sys2Proof.Machine
end

section
/-! SUPPORT. The priming of a sample on its lane (R7, R10, R11, R13, R14): what a read that completes or fails leaves. -/

namespace Sys2Proof.Machine

/-! ### The sample and its lane -/

/-- `u` differs from `s` in the entry `h`, the lane `l`, the reports and the head store alone. -/
structure State.PrimingOnly (s u : State) (l : LaneId) (h : Nat) : Prop where
  entries : ∀ k, k ≠ h → u.entry? k = s.entry? k
  lanes   : ∀ m, m ≠ l → u.lane m = s.lane m
  tables  : s.SameTables u
  only    : s.ChangesOnly u [.library, .lanes, .report, .headStore]

namespace State.PrimingOnly

variable {s t u : State} {l : LaneId} {h : Nat}

theorem trans (a : s.PrimingOnly t l h) (b : t.PrimingOnly u l h) : s.PrimingOnly u l h :=
  ⟨fun k other => (b.entries k other).trans (a.entries k other),
    fun m other => (b.lanes m other).trans (a.lanes m other), a.tables.trans b.tables, a.only.trans b.only⟩

theorem putEntry (s : State) (l : LaneId) (h : Nat) (e : SampleEntry) : s.PrimingOnly (s.putEntry h e) l h :=
  ⟨fun k other => by rw [State.putEntry_entry?, if_neg other], fun _ _ => rfl, ⟨rfl, rfl, rfl, rfl⟩,
    (s.putEntry_goes h e).only.wider (by decide)⟩

theorem setLane (s : State) (l : LaneId) (h : Nat) (x : Lane) : s.PrimingOnly (s.setLane l x) l h :=
  ⟨fun _ _ => rfl, fun m other => by rw [State.lane_setLane, if_neg other], ⟨rfl, rfl, rfl, rfl⟩,
    (s.setLane_goes l x).only.wider (by decide)⟩

theorem raise (s : State) (l : LaneId) (h : Nat) (c : Capture) : s.PrimingOnly (s.raise c) l h :=
  ⟨fun _ _ => rfl, fun _ _ => rfl, ⟨rfl, rfl, rfl, rfl⟩, (s.raise_goes c).only.wider (by decide)⟩

theorem setHeadStore (s : State) (l : LaneId) (h : Nat) (m : Memory) : s.PrimingOnly (s.setHeadStore m) l h :=
  ⟨fun _ _ => rfl, fun _ _ => rfl, ⟨rfl, rfl, rfl, rfl⟩, (s.setHeadStore_changes m).wider (by decide)⟩

end State.PrimingOnly

/-! ### Leaving the list -/

theorem filter_other (h : Nat) (list : List Nat) : list.filter (fun g => g != h) = list.filter (· ≠ h) :=
  List.filter_congr fun g _ => by rw [Bool.eq_iff_iff, bne_iff_ne, decide_eq_true_eq]

/-- R7: the priming sample leaves its lane's list, and the next is set up. -/
theorem State.leavePriming_head {s : State} {l : LaneId} {h : Nat} {more : List Nat}
    (list : (s.lane l).primingList = h :: more) :
    s.leavePriming l h = s.setLane l
      { s.lane l with primingList := more.filter (· ≠ h), segments := s.recordFor (more.filter (· ≠ h)) } := by
  have left : (h :: more).filter (fun g => g != h) = more.filter (· ≠ h) := by
    rw [List.filter_cons_of_neg (by simp), filter_other]
  have head : (h :: more).head? = some h := rfl
  rw [State.leavePriming, list, left, if_pos head]

theorem ne_of_filtered {g h : Nat} {more rest : List Nat} (list : more.filter (· ≠ h) = g :: rest) : g ≠ h := by
  have mem : g ∈ more.filter (· ≠ h) := list ▸ List.mem_cons_self ..
  exact of_decide_eq_true (List.mem_filter.mp mem).2

theorem State.recordFor_nextSetUp {s t : State} {h : Nat} (entries : ∀ k, k ≠ h → t.entry? k = s.entry? k)
    (more : List Nat) : NextSetUp s (more.filter (· ≠ h)) (t.recordFor (more.filter (· ≠ h))) := by
  refine ⟨fun empty => ?_, fun g rest f list entry => ?_⟩
  · rw [empty]
    rfl
  · rw [list, State.recordFor, entries g (ne_of_filtered list), entry]
    rfl

theorem NextSetUp.congr {s t : State} {h : Nat} (entries : ∀ k, k ≠ h → t.entry? k = s.entry? k) {more : List Nat}
    {segments : List Segment} (next : NextSetUp t (more.filter (· ≠ h)) segments) :
    NextSetUp s (more.filter (· ≠ h)) segments := by
  obtain ⟨empty, first⟩ := next
  refine ⟨empty, fun g rest f list entry => first g rest f list ?_⟩
  rw [entries g (ne_of_filtered list), entry]

/-- What the end of the priming of `h` on lane `l` leaves: its entry `f`, its result told, and the next sample set up. -/
structure State.PrimingEnds (s u : State) (l : LaneId) (h : Nat) (more : List Nat) (f : SampleEntry)
    (result : PrimeResult) : Prop where
  entry  : u.entry? h = some f
  report : u.report = s.report.raise (.primeDone h result)
  lane   : u.lane l = { s.lane l with primingList := more.filter (· ≠ h), segments := (u.lane l).segments }
  next   : NextSetUp s (more.filter (· ≠ h)) (u.lane l).segments
  head   : u.headStore = s.headStore
  only   : s.PrimingOnly u l h

theorem State.endPriming_ends {s : State} {l : LaneId} {h : Nat} {more : List Nat}
    (list : (s.lane l).primingList = h :: more) (f : SampleEntry) (result : PrimeResult) :
    s.PrimingEnds (((s.putEntry h f).leavePriming l h).raise (.primeDone h result)) l h more f result := by
  have put := State.PrimingOnly.putEntry s l h f
  rw [State.leavePriming_head (s := s.putEntry h f) list]
  have lane : ((s.putEntry h f).setLane l
      { (s.putEntry h f).lane l with primingList := more.filter (· ≠ h)
                                     segments := (s.putEntry h f).recordFor (more.filter (· ≠ h)) }).lane l =
      { s.lane l with primingList := more.filter (· ≠ h)
                      segments := (s.putEntry h f).recordFor (more.filter (· ≠ h)) } :=
    State.lane_setLane_same _ _ _
  refine ⟨?_, rfl, ?_, ?_, rfl, (put.trans (.setLane _ l h _)).trans (.raise _ l h _)⟩
  · show (s.putEntry h f).entry? h = _
    rw [State.putEntry_entry?, if_pos rfl]
  · exact lane.trans (congrArg (fun g => { s.lane l with primingList := more.filter (· ≠ h), segments := g })
      (congrArg Lane.segments lane).symm)
  · refine Eq.mpr (congrArg (NextSetUp s _) (congrArg Lane.segments lane)) ?_
    exact State.recordFor_nextSetUp put.entries more

/-! ### A priming read that completes -/

theorem State.outstandingSegment?_eq {s : State} {l : LaneId} {h j : Nat} {more : List Nat} {g : Segment}
    (list : (s.lane l).primingList = h :: more) (segment : (s.lane l).segments[j]? = some g)
    (outstanding : g.state = .outstanding) : s.outstandingSegment? l h j = some g := by
  rw [State.outstandingSegment?, list, segment]
  exact (if_pos rfl).trans (if_pos outstanding)

/-- R10: the entry with its progress once segment `j` is DONE. -/
def segmentTaken (s : State) (l : LaneId) (j : Nat) (g : Segment) (e : SampleEntry) : SampleEntry :=
  { e with progress := primingProgress e ((s.lane l).segments.set j { g with state := .done }) }

/-- R10: the segment's bytes in its page, the segment DONE, and one priming read less outstanding. -/
def State.fillSegment (s : State) (l : LaneId) (h j : Nat) (g : Segment) (e : SampleEntry) (data : List Byte) : State :=
  ((s.setLane l { s.lane l with primingOutstanding := (s.lane l).primingOutstanding - 1,
                                segments := (s.lane l).segments.set j { g with state := .done } }).setHeadStore
    (Memory.write s.headStore ((e.pageBase + j) * 65536) (data.take (min 65536 (e.headFrames * e.stride - 65536 * j))))).putEntry
    h (segmentTaken s l j g e)

theorem State.primingOk_eq {s : State} {l : LaneId} {h j : Nat} {more : List Nat} {g : Segment} {e : SampleEntry}
    (list : (s.lane l).primingList = h :: more) (segment : (s.lane l).segments[j]? = some g)
    (outstanding : g.state = .outstanding) (entry : s.entry? h = some e) (data : List Byte) :
    s.primingOk l h j data =
      if ((s.lane l).segments.set j { g with state := .done }).all (fun g => g.state == .done) then
        (s.fillSegment l h j g e data).finishPriming l h (segmentTaken s l j g e)
      else s.fillSegment l h j g e data := by
  have counted : (s.countPrimingRead l).lane l =
      { s.lane l with primingOutstanding := (s.lane l).primingOutstanding - 1 } := s.lane_setLane_same l _
  have marked : (s.countPrimingRead l).markSegment l j { g with state := .done } =
      s.setLane l { s.lane l with primingOutstanding := (s.lane l).primingOutstanding - 1,
                                  segments := (s.lane l).segments.set j { g with state := .done } } := by
    rw [State.markSegment, counted, State.countPrimingRead, State.setLane_setLane]
  rw [State.primingOk, State.outstandingSegment?_eq list segment outstanding, entry]
  dsimp only
  rw [marked, State.lane_setLane_same]
  rfl

theorem State.finishPriming_eq (s : State) (l : LaneId) (h : Nat) (e : SampleEntry) :
    s.finishPriming l h e =
      if s.headMatches e then ((s.putEntry h { e with state := .ready }).leavePriming l h).raise (.primeDone h .ready)
      else ((s.putEntry h { e with state := .faulted, fault := some .check }).leavePriming l h).raise
        (.primeDone h .check) := rfl

theorem State.headMatches_iff (s : State) (e : SampleEntry) :
    s.headMatches e = true ↔ ∀ c ∈ e.check, c = crc32 ((List.range (e.headFrames * e.stride)).map fun i =>
      Memory.read s.headStore (e.pageBase * 65536 + i)) := by
  rw [State.headMatches]
  cases e.check with
  | none => simp
  | some c =>
    dsimp only
    rw [beq_iff_eq]
    simp only [Option.mem_def, Option.some.injEq, forall_eq']
    exact eq_comm

/-- R14: the priming of `h` ends READY or FAULTED(CHECK), by the check of its head. -/
theorem State.finishPriming_ends {s : State} {l : LaneId} {h : Nat} {more : List Nat}
    (list : (s.lane l).primingList = h :: more) (e : SampleEntry) :
    ∃ f result, s.PrimingEnds (s.finishPriming l h e) l h more f result ∧
      let matching := ∀ c ∈ e.check, c = crc32 ((List.range (e.headFrames * e.stride)).map fun i =>
        Memory.read s.headStore (e.pageBase * 65536 + i))
      ((matching ∧ f = { e with state := .ready } ∧ result = .ready) ∨
        (¬matching ∧ f = { e with state := .faulted, fault := some .check } ∧ result = .check)) := by
  rw [State.finishPriming_eq]
  by_cases good : s.headMatches e = true
  · rw [if_pos good]
    exact ⟨_, _, State.endPriming_ends list _ _, .inl ⟨(s.headMatches_iff e).mp good, rfl, rfl⟩⟩
  · rw [if_neg good]
    exact ⟨_, _, State.endPriming_ends list _ _, .inr ⟨fun h => good ((s.headMatches_iff e).mpr h), rfl, rfl⟩⟩

theorem all_done_iff (segments : List Segment) :
    segments.all (fun g => g.state == .done) = true ↔ ∀ x ∈ segments, x.state = .done := by
  rw [List.all_eq_true]
  exact forall₂_congr fun _ _ => beq_iff_eq

theorem State.fillSegment_lane (s : State) (l : LaneId) (h j : Nat) (g : Segment) (e : SampleEntry) (data : List Byte) :
    (s.fillSegment l h j g e data).lane l =
      { s.lane l with primingOutstanding := (s.lane l).primingOutstanding - 1,
                      segments := (s.lane l).segments.set j { g with state := .done } } :=
  s.lane_setLane_same l _

theorem State.fillSegment_entry (s : State) (l : LaneId) (h j : Nat) (g : Segment) (e : SampleEntry) (data : List Byte) :
    (s.fillSegment l h j g e data).entry? h = some (segmentTaken s l j g e) := by
  rw [State.fillSegment, State.putEntry_entry?, if_pos rfl]

theorem State.fillSegment_only (s : State) (l : LaneId) (h j : Nat) (g : Segment) (e : SampleEntry) (data : List Byte) :
    s.PrimingOnly (s.fillSegment l h j g e data) l h :=
  ((State.PrimingOnly.setLane s l h _).trans (.setHeadStore _ l h _)).trans (.putEntry _ l h _)

theorem State.releaseNumber_lane (s : State) (l : LaneId) (n : Nat) :
    (s.releaseNumber l n none).lane l = { s.lane l with reads := Table.erase (s.lane l).reads n } :=
  s.lane_setLane_same l _

theorem State.resolveOk_live (s : State) (l : LaneId) (h j : Nat) (data : List Byte) :
    s.resolveOk l (.priming h j false) data = s.primingOk l h j data := rfl

/-- Settles O47: a discarded read is counted off; a LIVE one fills its segment, and the last one ends the priming. -/
theorem primingReadFills : Obligations.PrimingReadFills := by
  refine ⟨fun s l n data h j address units timer online busy fits => ?_,
    fun s l n data h j address units timer more g e online busy fits list segment outstanding entry => ?_⟩
  · rw [exec_readCompletion_ok online busy fits]
    have taken : (s.releaseNumber l n none).countPrimingRead l = s.setLane l
        { s.lane l with reads := Table.erase (s.lane l).reads n,
                        primingOutstanding := (s.lane l).primingOutstanding - 1 } := by
      rw [State.countPrimingRead, State.releaseNumber_lane, State.releaseNumber, State.setLane_setLane]
    exact congrArg (fun t : State => Host.Outcome.next t.dispatch) taken
  · have lane := s.releaseNumber_lane l n
    obtain ⟨t, isReleased⟩ : ∃ t, t = s.releaseNumber l n none := ⟨_, rfl⟩
    have released : s.PrimingOnly t l h := by
      rw [isReleased]
      exact .setLane s l h _
    rw [← isReleased] at lane
    have sameReport : t.report = s.report := by rw [isReleased]; rfl
    have sameHead : t.headStore = s.headStore := by rw [isReleased]; rfl
    have ran := exec_readCompletion_ok online busy fits
    rw [← isReleased, State.resolveOk_live] at ran
    have listT : (t.lane l).primingList = h :: more := by rw [lane]; exact list
    have segmentT : (t.lane l).segments[j]? = some g := by rw [lane]; exact segment
    have entryT : t.entry? h = some e := by rw [isReleased]; exact entry
    have isTaken : segmentTaken t l j g e =
        { e with progress := primingProgress e ((s.lane l).segments.set j { g with state := .done }) } := by
      rw [segmentTaken, lane]
    have resolved := State.primingOk_eq listT segmentT outstanding entryT data
    have fills := t.fillSegment_only l h j g e data
    have fillEntry := t.fillSegment_entry l h j g e data
    have fillLane := t.fillSegment_lane l h j g e data
    have fillHead : (t.fillSegment l h j g e data).headStore =
        Memory.write s.headStore ((e.pageBase + j) * 65536)
          (data.take (min 65536 (e.headFrames * e.stride - 65536 * j))) := by
      rw [← sameHead]
      rfl
    have fillReport : (t.fillSegment l h j g e data).report = s.report := sameReport
    rw [isTaken] at fillEntry resolved
    rw [lane] at fillLane resolved
    generalize t.fillSegment l h j g e data = w at *
    refine ⟨t.primingOk l h j data, ran, ?_⟩
    have only := released.trans fills
    by_cases all : ∀ x ∈ (s.lane l).segments.set j { g with state := .done }, x.state = .done
    · rw [resolved, if_pos ((all_done_iff _).mpr all)]
      have listW : (w.lane l).primingList = h :: more := by rw [fillLane]; exact list
      obtain ⟨f, result, ends, judged⟩ := State.finishPriming_ends listW
        { e with progress := primingProgress e ((s.lane l).segments.set j { g with state := .done }) }
      generalize w.finishPriming l h _ = u at ends
      obtain ⟨entryU, reportU, laneU, nextU, headU, onlyU⟩ := ends
      obtain ⟨others, lanes, ⟨articulations, zones, curves, matrices⟩, changes⟩ := only.trans onlyU
      rw [fillReport] at reportU
      rw [fillLane] at laneU
      refine ⟨fun i inside => ?_, fun a outside => ?_, fun ⟨x, mem, other⟩ => absurd (all x mem) other,
        fun _ => ⟨laneU, NextSetUp.congr only.entries nextU, fun good => ?_, fun c check differs => ?_⟩, others, lanes,
        changes.slots (by decide), articulations, zones, curves, matrices, changes.ringStore (by decide),
        changes.voices (by decide), changes.port (by decide), changes.cadence (by decide), changes.pass (by decide),
        changes.config (by decide), changes.nextOrder (by decide), changes.freeCount (by decide)⟩
      · rw [headU, fillHead]
        exact Memory.read_write_inside _ _ _ _ inside
      · rw [headU, fillHead]
        exact Memory.read_write_outside _ _ _ _ outside
      · rw [headU] at good
        rcases judged with ⟨-, rfl, rfl⟩ | ⟨bad, -, -⟩
        · exact ⟨entryU, reportU⟩
        · exact absurd good bad
      · rw [headU] at differs
        rcases judged with ⟨good, -, -⟩ | ⟨-, rfl, rfl⟩
        · exact absurd (good c check) differs
        · exact ⟨entryU, reportU⟩
    · rw [resolved, if_neg (fun done => all ((all_done_iff _).mp done))]
      obtain ⟨others, lanes, ⟨articulations, zones, curves, matrices⟩, changes⟩ := only
      refine ⟨fun i inside => ?_, fun a outside => ?_, fun _ => ⟨fillEntry, fillReport, fillLane⟩,
        fun done => absurd done all, others, lanes, changes.slots (by decide), articulations, zones, curves, matrices,
        changes.ringStore (by decide), changes.voices (by decide), changes.port (by decide), changes.cadence (by decide),
        changes.pass (by decide), changes.config (by decide), changes.nextOrder (by decide),
        changes.freeCount (by decide)⟩
      · rw [fillHead]
        exact Memory.read_write_inside _ _ _ _ inside
      · rw [fillHead]
        exact Memory.read_write_outside _ _ _ _ outside

end Sys2Proof.Machine
end

section
/-! SUPPORT. A read that fails (R91 to R93, R96, R97): what it leaves of its lane, and of the part or the segment that it
was for. -/

namespace Sys2Proof.Machine

/-! ### The lane and its count -/

/-- R96, R97: a lane with its table `reads` when a failure has been counted against its limit. -/
def Lane.failed (x : Lane) (limit : Nat) (reads : Table ReadEntry) : Lane :=
  { x with reads := reads, errors := min (x.errors + 1) 65535,
           state := if x.state = .ready ∧ limit < min (x.errors + 1) 65535 then .errored else x.state }

/-- R96, R97: the state when a failure has been counted on lane `l`, its table then `reads`. -/
def State.readFailed (s : State) (l : LaneId) (reads : Table ReadEntry) : State :=
  { s with report := if (s.lane l).state = .ready ∧ s.config.laneThreshold < min ((s.lane l).errors + 1) 65535 then
                         s.report.raise (.laneState l .ready .errored)
                       else s.report,
           lanes := PerLane.set s.lanes l ((s.lane l).failed s.config.laneThreshold reads) }

theorem State.readFailed_lane (s : State) (l : LaneId) (reads : Table ReadEntry) :
    (s.readFailed l reads).lane l = (s.lane l).failed s.config.laneThreshold reads :=
  (PerLane.get_set _ _ _ _).trans (if_pos rfl)

theorem State.readFailed_only (s : State) (l : LaneId) (reads : Table ReadEntry) (h : Nat) :
    s.PrimingOnly (s.readFailed l reads) l h :=
  ⟨fun _ _ => rfl, fun m other => (PerLane.get_set _ _ _ _).trans (if_neg other), ⟨rfl, rfl, rfl, rfl⟩,
    fun part out => by cases part <;> first | rfl | exact absurd (by decide) out⟩

theorem State.countFailure_eq {s : State} {l : LaneId} (online : (s.lane l).state ≠ .offline) (reads : Table ReadEntry) :
    (s.setLane l { s.lane l with reads := reads }).countFailure l = s.readFailed l reads := by
  have online : ¬ ((s.setLane l { s.lane l with reads := reads }).lane l).state = .offline := by
    rw [State.lane_setLane_same]
    exact online
  rw [State.countFailure, if_neg online, State.lane_setLane_same, State.readFailed, Lane.failed]
  dsimp only [saturate16]
  by_cases fails : (s.lane l).state = .ready ∧ s.config.laneThreshold < min ((s.lane l).errors + 1) 65535
  · rw [if_pos (by exact fails), if_pos fails, if_pos fails, State.setLane_setLane]
    rfl
  · rw [if_neg (by exact fails), if_neg fails, if_neg fails, State.setLane_setLane]
    rfl

/-! ### The read that fails -/

/-- R92, step 2, for a read that failed and has been counted. -/
def State.resolveFailure (s : State) (l : LaneId) (owner : ReadOwner) (address units : Nat) (cause : ReadCause) : State :=
  match owner with
  | .stream v j p =>
    (s.streamReadError v j l address cause).failPart v j p l ((s.lane l).state == .ready) address units
  | .priming h j discard => if discard then s.countPrimingRead l else s.primingFailed l h j address cause

theorem State.resolveFailed_eq (s : State) (l : LaneId) (owner : ReadOwner) (address units : Nat) (cause : ReadCause) :
    s.resolveFailed l owner address units cause = (s.countFailure l).resolveFailure l owner address units cause := by
  cases owner <;> rfl

/-- The table of a lane when the read under a number has failed, by a completion or by a timeout (R90, R91). -/
def failedReads (s : State) (l : LaneId) (n : Fin 32) (ecc : Bool) : Table ReadEntry :=
  if ecc then Table.erase (s.lane l).reads n else Table.insert (s.lane l).reads n (.stale s.config.readTimeout)

theorem exec_failed {s : State} {l : LaneId} {n : Fin 32} {owner : ReadOwner} {address units timer : Nat}
    (online : (s.lane l).state ≠ .offline)
    (busy : Table.get? (s.lane l).reads n = some (.busy owner address units timer)) (data : List Byte) (ecc : Bool) :
    exec (if ecc then .readCompletion l n .eccFail data else .readTimeout l n) s =
      .next ((s.readFailed l (failedReads s l n ecc)).resolveFailure l owner address units
        (if ecc then .ecc else .timeout)).dispatch := by
  have counted := State.countFailure_eq online (failedReads s l n ecc)
  cases ecc with
  | true =>
    show execReadCompletion l n .eccFail data s = _
    rw [execReadCompletion, if_neg online, busy]
    dsimp only
    rw [State.resolveFailed_eq, ← counted]
    rfl
  | false =>
    show execReadTimeout l n s = _
    rw [execReadTimeout, busy]
    dsimp only
    rw [State.resolveFailed_eq, ← counted]
    rfl

/-! ### The part of a slot -/

theorem State.failPart_eq {s : State} {v j : Nat} {slot : Slot} (held : s.slot? v j = some slot) (p : Nat) (l : LaneId)
    (retry : Bool) (address units : Nat) :
    s.failPart v j p l retry address units =
      match slot.state with
      | .inFlight =>
        if retry && !slot.retryUsed then s.retryPart v j p l slot address units
        else s.loseSlot v j l slot (slot.marks.set p .failed) (slot.outstanding - 1)
      | .draining => s.drainRead v j p slot
      | .lost => s.countLostRead v j p slot
      | .queued => s
      | .full => s := by
  rw [State.failPart, held] <;> rfl

/-- R93: READ_ERROR for the part of an IN_FLIGHT slot alone. -/
theorem State.streamReadError_eq {s : State} {v j : Nat} {slot : Slot} (held : s.slot? v j = some slot) (l : LaneId)
    (address : Nat) (cause : ReadCause) :
    s.streamReadError v j l address cause =
      if slot.state = .inFlight then s.raise (.readError l address cause) else s := by
  rw [State.streamReadError, State.readWanted, held]
  exact if_congr beq_iff_eq rfl rfl

/-- R78: FETCH_LOST, with the tag of the voice whose chunk is lost. -/
def State.lostReport (s : State) (v : Nat) (l : LaneId) (chunk : Nat) : Report :=
  match s.voice? v with
  | none => s.report
  | some x => s.report.raise (.fetchLost x.tag l chunk)

theorem State.lostReport_of_voice {s : State} {v : Nat} {x : Voice} (voice : s.voice? v = some x) (l : LaneId)
    (chunk : Nat) : s.lostReport v l chunk = s.report.raise (.fetchLost x.tag l chunk) := by
  rw [State.lostReport, voice]

/-- R78: what a slot that is LOST leaves. -/
theorem State.loseSlot_eq (s : State) (v j : Nat) (l : LaneId) (slot : Slot) (marks : List PartMark) (count : Nat) :
    s.loseSlot v j l slot marks count =
      { s with
        slots := Table.insert s.slots (8 * v + j)
          { slot with state := .lost, marks := failWaiting marks, outstanding := count }
        lanes := PerLane.map s.lanes fun x =>
          { x with queue := x.queue.filter fun n => !(n.voice == v && n.slot == j) }
        report := s.lostReport v l slot.chunk } := by
  unfold State.loseSlot State.lostReport
  cases s.voice? v <;> rfl

/-- R78: a part that rejoins its lane queue after the failure has been counted. -/
theorem State.retryPart_readFailed (s : State) (l : LaneId) (reads : Table ReadEntry) (v j p : Nat) (slot : Slot)
    (address units : Nat) (c : Capture) :
    ((s.readFailed l reads).raise c).retryPart v j p l slot address units =
      { s with
        report := (s.readFailed l reads).report.raise c
        slots := Table.insert s.slots (8 * v + j)
          { slot with retryUsed := true, marks := slot.marks.set p .waiting, outstanding := slot.outstanding - 1 }
        lanes := PerLane.set s.lanes l
          { (s.lane l).failed s.config.laneThreshold reads with
            queue := queueInsert (s.lane l).queue ⟨v, j, p, slot.deadline, address, units⟩ } } := by
  have lane (slots : Slot) : (((s.readFailed l reads).raise c).putSlot v j slots).lane l =
      (s.lane l).failed s.config.laneThreshold reads := s.readFailed_lane l reads
  rw [State.retryPart, State.enqueue, lane]
  exact congrArg (fun x => { s with
    report := (s.readFailed l reads).report.raise c
    slots := Table.insert s.slots (8 * v + j)
      { slot with retryUsed := true, marks := slot.marks.set p .waiting, outstanding := slot.outstanding - 1 }
    lanes := x }) (PerLane.set_set _ _ _ _)

/-- R92: a part of an IN_FLIGHT slot whose read failed. -/
theorem State.resolveFailure_inFlight {s : State} {v j : Nat} {slot : Slot} (held : s.slot? v j = some slot)
    (inFlight : slot.state = .inFlight) (p : Nat) (l : LaneId) (address units : Nat) (cause : ReadCause) :
    s.resolveFailure l (.stream v j p) address units cause =
      if ((s.lane l).state == .ready && !slot.retryUsed) = true then
        (s.raise (.readError l address cause)).retryPart v j p l slot address units
      else (s.raise (.readError l address cause)).loseSlot v j l slot (slot.marks.set p .failed) (slot.outstanding - 1) := by
  have held' : (s.raise (.readError l address cause)).slot? v j = some slot := held
  rw [State.resolveFailure, State.streamReadError_eq held, if_pos inFlight, State.failPart_eq held', inFlight]

/-- R92, R93: a part of a LOST or DRAINING slot whose read failed. -/
theorem State.resolveFailure_unwanted {s : State} {v j : Nat} {slot : Slot} (held : s.slot? v j = some slot)
    (unwanted : slot.state = .lost ∨ slot.state = .draining) (p : Nat) (l : LaneId) (address units : Nat)
    (cause : ReadCause) :
    s.resolveFailure l (.stream v j p) address units cause =
      if slot.state = .draining then s.drainRead v j p slot else s.countLostRead v j p slot := by
  rw [State.resolveFailure, State.streamReadError_eq held]
  rcases unwanted with is | is <;> rw [is, if_neg nofun, State.failPart_eq held, is]
  · exact (if_neg nofun).symm
  · exact (if_pos rfl).symm

/-! ### The segment of a priming sample -/

/-- R11: a segment that has its retry left is UNREAD again. -/
theorem State.primingFailed_retry {s : State} {l : LaneId} {h j : Nat} {more : List Nat} {g : Segment} {e : SampleEntry}
    (list : (s.lane l).primingList = h :: more) (segment : (s.lane l).segments[j]? = some g)
    (outstanding : g.state = .outstanding) (entry : s.entry? h = some e) (ready : (s.lane l).state = .ready)
    (unused : g.retryUsed = false) (address : Nat) (cause : ReadCause) :
    s.primingFailed l h j address cause =
      { s with report := s.report.raise (.readError l address cause),
               lanes := PerLane.set s.lanes l
                 { s.lane l with primingOutstanding := (s.lane l).primingOutstanding - 1,
                                 segments := (s.lane l).segments.set j { state := .unread, retryUsed := true } } } := by
  have counted : ((s.raise (.readError l address cause)).countPrimingRead l).lane l =
      { s.lane l with primingOutstanding := (s.lane l).primingOutstanding - 1 } := State.lane_setLane_same _ l _
  have retry : (!g.retryUsed && (s.lane l).state == .ready) = true := by
    rw [unused, ready]
    rfl
  rw [State.primingFailed, State.outstandingSegment?_eq list segment outstanding, entry]
  dsimp only
  rw [if_pos retry, State.markSegment, counted, State.countPrimingRead, State.setLane_setLane]
  rfl

theorem discardRead_eq (h : Nat) (r : ReadEntry) :
    discardRead h r = match r with
      | .busy (.priming k i d) a m ms => .busy (.priming k i (d || k == h)) a m ms
      | other => other := by
  cases r with
  | stale => rfl
  | busy owner => cases owner <;> rfl

/-- R11, R13: a segment that has none fails the priming. -/
theorem State.primingFailed_final {s : State} {l : LaneId} {h j : Nat} {more : List Nat} {g : Segment} {e : SampleEntry}
    (list : (s.lane l).primingList = h :: more) (segment : (s.lane l).segments[j]? = some g)
    (outstanding : g.state = .outstanding) (entry : s.entry? h = some e)
    (final : (s.lane l).state ≠ .ready ∨ g.retryUsed = true) (address : Nat) (cause : ReadCause) :
    ((s.raise (.readError l address cause)).setLane l
      { s.lane l with primingOutstanding := (s.lane l).primingOutstanding - 1,
                      reads := (s.lane l).reads.map fun row => (row.1, discardRead h row.2) }).PrimingEnds
      (s.primingFailed l h j address cause) l h more { e with state := .faulted, fault := some .read } .read := by
  have counted : ((s.raise (.readError l address cause)).countPrimingRead l).lane l =
      { s.lane l with primingOutstanding := (s.lane l).primingOutstanding - 1 } := State.lane_setLane_same _ l _
  have noRetry : ¬ (!g.retryUsed && (s.lane l).state == .ready) = true := by
    rw [Bool.and_eq_true, Bool.not_eq_true', beq_iff_eq]
    rintro ⟨unused, ready⟩
    rcases final with other | used
    · exact other ready
    · rw [unused] at used
      cases used
  have discarded : ((s.raise (.readError l address cause)).countPrimingRead l).discardReads l h =
      (s.raise (.readError l address cause)).setLane l
        { s.lane l with primingOutstanding := (s.lane l).primingOutstanding - 1,
                        reads := (s.lane l).reads.map fun row => (row.1, discardRead h row.2) } := by
    rw [State.discardReads, counted, State.countPrimingRead, State.setLane_setLane]
  have failed : s.primingFailed l h j address cause =
      ((((s.raise (.readError l address cause)).setLane l
        { s.lane l with primingOutstanding := (s.lane l).primingOutstanding - 1,
                        reads := (s.lane l).reads.map fun row => (row.1, discardRead h row.2) }).putEntry h
        { e with state := .faulted, fault := some .read }).leavePriming l h).raise (.primeDone h .read) := by
    rw [State.primingFailed, State.outstandingSegment?_eq list segment outstanding, entry, ← discarded]
    exact if_neg noRetry
  rw [failed]
  refine State.endPriming_ends ?_ _ _
  rw [State.lane_setLane_same]
  exact list

/-- Settles O48: the number and the count, then the part by the state of its slot, or the segment. -/
theorem readTimeout : Obligations.ReadTimeout := by
  refine ⟨fun s l n idle => ?_, fun s l n data ecc owner address units timer online busy => ?_⟩
  · show execReadTimeout l n s = _
    rw [execReadTimeout]
    split
    next owner address units timer busy => exact absurd busy (idle _ _ _ _)
    next => rfl
    next => rfl
  intro c errors fails lane counted told
  have run : exec c s = _ := exec_failed online busy data ecc
  have laneIs := s.readFailed_lane l (failedReads s l n ecc)
  have isLane : lane = (s.readFailed l (failedReads s l n ecc)).lane l := laneIs.symm
  refine ⟨fun v j p slot owned held inFlight => ?_, fun v j p slot owned held => ?_, fun h j owned => ?_,
    fun h j more g e owned list segment outstanding entry => ?_⟩ <;> subst owned
  · have held' : (s.readFailed l (failedReads s l n ecc)).slot? v j = some slot := held
    rw [State.resolveFailure_inFlight held' inFlight, ← isLane] at run
    refine ⟨fun ready unused => ?_, fun final => ?_⟩
    · rw [if_pos (by rw [ready, unused]; rfl)] at run
      refine run.trans (congrArg (fun t : State => Host.Outcome.next t.dispatch) ?_)
      exact State.retryPart_readFailed s l _ v j p slot address units _
    · have noRetry : ¬ (lane.state == .ready && !slot.retryUsed) = true := by
        rw [Bool.and_eq_true, Bool.not_eq_true', beq_iff_eq]
        rintro ⟨ready, unused⟩
        rcases final with errored | used
        · rw [ready] at errored
          cases errored
        · rw [unused] at used
          cases used
      rw [if_neg noRetry, State.loseSlot_eq] at run
      refine ⟨_, run, rfl, fun x voice => ?_, fun m => ?_, rfl, rfl, rfl, rfl, rfl, rfl, rfl, rfl⟩
      · exact State.lostReport_of_voice
          (s := (s.readFailed l (failedReads s l n ecc)).raise (.readError l address (if ecc then .ecc else .timeout)))
          voice l slot.chunk
      · have was : (s.readFailed l (failedReads s l n ecc)).lane m = if m = l then lane else s.lane m :=
          PerLane.get_set _ _ _ _
        exact (PerLane.get_map _ _ m).trans
          (congrArg (fun x : Lane => { x with queue := x.queue.filter fun n => !(n.voice == v && n.slot == j) }) was)
  · have held' : (s.readFailed l (failedReads s l n ecc)).slot? v j = some slot := held
    refine ⟨fun counts => ?_, fun draining last => ⟨fun empty => ?_, fun k x e successor voice entry => ?_⟩⟩
    · have unwanted : slot.state = .lost ∨ slot.state = .draining := counts.imp_right And.left
      rw [State.resolveFailure_unwanted held' unwanted] at run
      refine run.trans (congrArg (fun t : State => Host.Outcome.next t.dispatch) ?_)
      split
      next draining =>
        rcases counts with lost | ⟨-, more⟩
        · rw [draining] at lost
          cases lost
        · exact State.drainRead_counted more
      next => rfl
    · rw [State.resolveFailure_unwanted held' (.inr draining), if_pos draining, State.drainRead_empty last empty] at run
      exact run
    · rw [State.resolveFailure_unwanted held' (.inr draining), if_pos draining,
        State.drainRead_successor (s := s.readFailed l (failedReads s l n ecc)) last successor voice entry] at run
      exact run
  · refine run.trans (congrArg (fun t : State => Host.Outcome.next t.dispatch) ?_)
    show (s.readFailed l (failedReads s l n ecc)).countPrimingRead l = _
    rw [State.countPrimingRead, laneIs]
    exact congrArg (fun x => { s with report := counted, lanes := x }) (PerLane.set_set _ _ _ _)
  · have list' : ((s.readFailed l (failedReads s l n ecc)).lane l).primingList = h :: more := by rw [laneIs]; exact list
    have segment' : ((s.readFailed l (failedReads s l n ecc)).lane l).segments[j]? = some g := by
      rw [laneIs]; exact segment
    have entry' : (s.readFailed l (failedReads s l n ecc)).entry? h = some e := entry
    refine ⟨fun ready unused => ?_, fun final => ?_⟩
    · have ready' : ((s.readFailed l (failedReads s l n ecc)).lane l).state = .ready := by rw [laneIs]; exact ready
      refine run.trans (congrArg (fun t : State => Host.Outcome.next t.dispatch) ?_)
      refine (State.primingFailed_retry list' segment' outstanding entry' ready' unused _ _).trans ?_
      rw [laneIs]
      exact congrArg (fun x => { s with report := told, lanes := x }) (PerLane.set_set _ _ _ _)
    · have final' : ((s.readFailed l (failedReads s l n ecc)).lane l).state ≠ .ready ∨ g.retryUsed = true := by
        rw [laneIs]
        exact final.imp_left fun errored ready => by rw [show lane.state = .ready from ready] at errored; cases errored
      have ends := State.primingFailed_final list' segment' outstanding entry' final' address
        (if ecc then .ecc else .timeout)
      have counting := ((s.readFailed_only l (failedReads s l n ecc) h).trans
        (.raise _ l h (.readError l address (if ecc then .ecc else .timeout)))).trans (.setLane _ l h
          { (s.readFailed l (failedReads s l n ecc)).lane l with
            primingOutstanding := ((s.readFailed l (failedReads s l n ecc)).lane l).primingOutstanding - 1
            reads := ((s.readFailed l (failedReads s l n ecc)).lane l).reads.map fun row => (row.1, discardRead h row.2) })
      obtain ⟨entryU, reportU, laneU, nextU, headU, onlyU⟩ := ends
      obtain ⟨others, lanes, -, changes⟩ := counting.trans onlyU
      rw [State.lane_setLane_same, laneIs] at laneU
      have discards : (fun row : Nat × ReadEntry => (row.1, discardRead h row.2)) = fun row => (row.1, match row.2 with
          | .busy (.priming k i d) a m ms => .busy (.priming k i (d || k == h)) a m ms
          | other => other) := funext fun row => congrArg _ (discardRead_eq h row.2)
      rw [discards] at laneU
      exact ⟨_, run, entryU, reportU, ⟨laneU, NextSetUp.congr counting.entries nextU⟩, lanes, others, changes.voices (by decide),
        changes.slots (by decide), changes.port (by decide), changes.cadence (by decide), changes.pass (by decide),
        changes.config (by decide), headU, changes.ringStore (by decide)⟩

end Sys2Proof.Machine
end

section
/-! SUPPORT. Dispatch (R9, R71, R88, R89): when a lane sends, what it sends, and that it goes on until it cannot. -/

namespace Sys2Proof.Machine

/-! ### The lowest FREE number -/

theorem Lane.freeNumber?_eq_some {x : Lane} {n : Nat} (rising : Table.Rising x.reads) :
    x.freeNumber? = some n ↔
      n < 32 ∧ Table.get? x.reads n = none ∧ ∀ m < n, (Table.get? x.reads m).isSome = true := by
  have free := Table.get?_firstFree rising (n := 0) fun _ _ => Nat.zero_le _
  have taken (m : Nat) := Table.get?_below_firstFree rising (Nat.zero_le m)
  rw [Lane.freeNumber?, readNumbers]
  constructor
  · intro h
    split at h
    next below =>
      obtain rfl := Option.some.inj h
      exact ⟨below, free, taken⟩
    next => cases h
  · rintro ⟨below, none, before⟩
    have lowest : Table.firstFree x.reads 0 = n := by
      rcases Nat.lt_trichotomy (Table.firstFree x.reads 0) n with lower | same | higher
      · have listed := before _ lower
        rw [free] at listed
        cases listed
      · exact same
      · have listed := taken n higher
        rw [none] at listed
        cases listed
    rw [lowest, if_pos below]

theorem Lane.freeNumber?_eq_none {x : Lane} (rising : Table.Rising x.reads)
    (full : ∀ n < 32, (Table.get? x.reads n).isSome = true) : x.freeNumber? = none := by
  refine Option.eq_none_iff_forall_ne_some.mpr fun n h => ?_
  obtain ⟨below, free, -⟩ := (Lane.freeNumber?_eq_some rising).mp h
  have listed := full n below
  rw [free] at listed
  cases listed

/-! ### One dispatch -/

theorem State.dispatchOne?_none {s : State} {l : LaneId}
    (cannot : (s.lane l).state = .offline ∨ 32 ≤ (s.lane l).readsOutstanding) : s.dispatchOne? l = none :=
  if_pos cannot

theorem State.dispatchOne?_full {s : State} {l : LaneId} (full : (s.lane l).freeNumber? = none) :
    s.dispatchOne? l = none := by
  rw [State.dispatchOne?, full]
  exact ite_self _

theorem State.dispatchOne?_queue {s : State} {l : LaneId} {number : Nat} {n : QueueEntry} {rest : List QueueEntry}
    (online : (s.lane l).state ≠ .offline) (few : (s.lane l).readsOutstanding < 32)
    (free : (s.lane l).freeNumber? = some number) (queue : (s.lane l).queue = n :: rest) :
    s.dispatchOne? l = some (s.dispatchStream l number n rest) := by
  rw [State.dispatchOne?, free, queue]
  exact if_neg (not_or.mpr ⟨online, Nat.not_le.mpr few⟩)

theorem State.dispatchOne?_priming {s : State} {l : LaneId} {number : Nat}
    (online : (s.lane l).state ≠ .offline) (few : (s.lane l).readsOutstanding < 32)
    (free : (s.lane l).freeNumber? = some number) (queue : (s.lane l).queue = []) :
    s.dispatchOne? l = s.dispatchPriming? l number := by
  rw [State.dispatchOne?, free, queue]
  exact if_neg (not_or.mpr ⟨online, Nat.not_le.mpr few⟩)

theorem State.dispatchStream_eq {s : State} {l : LaneId} {number : Nat} {n : QueueEntry} {rest : List QueueEntry}
    {slot : Slot} (held : s.slot? n.voice n.slot = some slot) :
    s.dispatchStream l number n rest =
      { s with
        lanes := PerLane.set s.lanes l
          { s.lane l with
            queue := rest
            reads := Table.insert (s.lane l).reads number
              (.busy (.stream n.voice n.slot n.part) n.address n.unitCount s.config.readTimeout) }
        slots := Table.insert s.slots (8 * n.voice + n.slot)
          { slot with state := if slot.state = .queued then .inFlight else slot.state,
                      marks := slot.marks.set n.part .outstanding, outstanding := slot.outstanding + 1 } } := by
  rw [State.dispatchStream, held]
  rfl

theorem lowestUnread_eq_none {segments : List Segment} (done : ∀ g ∈ segments, g.state ≠ .unread) :
    lowestUnread segments = none :=
  List.findIdx?_eq_none_iff.mpr fun g mem => beq_false_of_ne (done g mem)

theorem lowestUnread_eq_some {segments : List Segment} {j : Nat} {g : Segment} (segment : segments[j]? = some g)
    (unread : g.state = .unread) (first : ∀ i < j, ∀ x, segments[i]? = some x → x.state ≠ .unread) :
    lowestUnread segments = some j := by
  obtain ⟨inside, rfl⟩ := List.getElem?_eq_some_iff.mp segment
  refine List.findIdx?_eq_some_iff_getElem.mpr ⟨inside, beq_iff_eq.mpr unread, fun i before => ?_⟩
  rw [beq_iff_eq]
  exact first i before _ (List.getElem?_eq_getElem _)

theorem State.dispatchPriming?_none {s : State} {l : LaneId}
    (cannot : 4 ≤ (s.lane l).primingOutstanding ∨ ∀ g ∈ (s.lane l).segments, g.state ≠ .unread) (number : Nat) :
    s.dispatchPriming? l number = none := by
  rw [State.dispatchPriming?]
  split
  · rfl
  next few =>
    rcases cannot with many | done
    · exact absurd many few
    · rw [lowestUnread_eq_none done]
      cases (s.lane l).primingList <;> rfl

theorem State.dispatchPriming?_eq {s : State} {l : LaneId} {h : Nat} {more : List Nat} {j : Nat} {g : Segment}
    {e : SampleEntry} (few : (s.lane l).primingOutstanding < 4) (list : (s.lane l).primingList = h :: more)
    (entry : s.entry? h = some e) (segment : (s.lane l).segments[j]? = some g)
    (lowest : lowestUnread (s.lane l).segments = some j) (number : Nat) :
    s.dispatchPriming? l number = some
      { s with
        lanes := PerLane.set s.lanes l
          { s.lane l with
            reads := Table.insert (s.lane l).reads number
              (.busy (.priming h j false) (e.baseUnit + 16 * j) (segmentUnitCount e j) s.config.readTimeout)
            segments := (s.lane l).segments.set j { g with state := .outstanding }
            primingOutstanding := (s.lane l).primingOutstanding + 1 } } := by
  have few : ¬ primingLimit ≤ (s.lane l).primingOutstanding := Nat.not_le.mpr few
  rw [State.dispatchPriming?, if_neg few, list, lowest]
  dsimp only
  rw [entry, segment, ← list]
  rfl

/-! ### Dispatch goes on -/

/-- What one dispatch of lane `l` does to the lanes. -/
structure State.Sends (s t : State) (l : LaneId) : Prop where
  online : (s.lane l).state ≠ .offline
  number : ∃ n r, (s.lane l).freeNumber? = some n ∧ (t.lane l).reads = Table.insert (s.lane l).reads n r
  queue  : ∃ taken, (s.lane l).queue = taken ++ (t.lane l).queue ∧ taken.length ≤ 1
  others : ∀ m, m ≠ l → t.lane m = s.lane m

theorem State.dispatchPriming?_sends {s t : State} {l : LaneId} {n : Nat} (online : (s.lane l).state ≠ .offline)
    (free : (s.lane l).freeNumber? = some n) (h : s.dispatchPriming? l n = some t) : s.Sends t l := by
  unfold State.dispatchPriming? at h
  dsimp only at h
  split at h
  · cases h
  split at h
  · split at h
    · cases h
      exact ⟨online, ⟨n, _, free, congrArg Lane.reads (s.lane_setLane_same l _)⟩,
        ⟨[], by rw [State.lane_setLane_same]; rfl, Nat.zero_le _⟩,
        fun m other => (s.lane_setLane l m _).trans (if_neg other)⟩
    · cases h
  · cases h

theorem State.dispatchStream_sends {s : State} {l : LaneId} {n : Nat} {x : QueueEntry} {rest : List QueueEntry}
    (online : (s.lane l).state ≠ .offline) (free : (s.lane l).freeNumber? = some n)
    (queue : (s.lane l).queue = x :: rest) : s.Sends (s.dispatchStream l n x rest) l := by
  have lanes : (s.dispatchStream l n x rest).lanes = PerLane.set s.lanes l
      { s.lane l with
        queue := rest
        reads := Table.insert (s.lane l).reads n
          (.busy (.stream x.voice x.slot x.part) x.address x.unitCount s.config.readTimeout) } := by
    rw [State.dispatchStream]
    split <;> rfl
  have lane (m : LaneId) := congrArg (PerLane.get · m) lanes
  have here := (lane l).trans ((PerLane.get_set _ _ _ _).trans (if_pos rfl))
  refine ⟨online, ⟨n, _, free, congrArg Lane.reads here⟩, ⟨[x], ?_, Nat.le_refl _⟩, fun m other => ?_⟩
  · rw [queue]
    exact congrArg (x :: ·) (congrArg Lane.queue here).symm
  · exact (lane m).trans ((PerLane.get_set _ _ _ _).trans (if_neg other))

theorem State.dispatchOne?_sends {s t : State} {l : LaneId} (h : s.dispatchOne? l = some t) : s.Sends t l := by
  unfold State.dispatchOne? at h
  dsimp only at h
  split at h
  · cases h
  next can =>
    obtain ⟨online, -⟩ := not_or.mp can
    split at h
    · cases h
    next n free =>
      split at h
      next x rest queue =>
        obtain rfl := Option.some.inj h
        exact State.dispatchStream_sends online free queue
      next => exact State.dispatchPriming?_sends online free h

/-- R88: the FREE read numbers of a lane. -/
def Lane.freeNumbers (x : Lane) : Finset Nat :=
  (Finset.range 32).filter fun n => (Table.get? x.reads n).isNone = true

/-- A dispatch takes one of the FREE numbers. -/
theorem State.Sends.freeNumbers_lt {s t : State} {l : LaneId} (sends : s.Sends t l)
    (rising : Table.Rising (s.lane l).reads) :
    (t.lane l).freeNumbers.card < (s.lane l).freeNumbers.card := by
  obtain ⟨n, r, free, reads⟩ := sends.number
  obtain ⟨below, none, -⟩ := (Lane.freeNumber?_eq_some rising).mp free
  refine Finset.card_lt_card (Finset.ssubset_iff_of_subset ?_ |>.mpr ⟨n, ?_, ?_⟩)
  · intro m mem
    rw [Lane.freeNumbers, Finset.mem_filter, reads, Table.get?_insert] at mem
    obtain ⟨inside, isFree⟩ := mem
    split at isFree
    · cases isFree
    · exact Finset.mem_filter.mpr ⟨inside, isFree⟩
  · exact Finset.mem_filter.mpr ⟨Finset.mem_range.mpr below, by rw [none]; rfl⟩
  · rw [Lane.freeNumbers, Finset.mem_filter, reads, Table.get?_insert, if_pos rfl]
    nofun

theorem State.Sends.rising {s t : State} {l : LaneId} (sends : s.Sends t l) (rising : Table.Rising (s.lane l).reads) :
    Table.Rising (t.lane l).reads := by
  obtain ⟨n, r, -, reads⟩ := sends.number
  rw [reads]
  exact Table.rising_insert rising n r

/-- R89: a lane dispatches until it cannot. -/
theorem State.dispatchLane_settled {l : LaneId} (n : Nat) {s : State} (rising : Table.Rising (s.lane l).reads)
    (room : (s.lane l).freeNumbers.card ≤ n) : (State.dispatchLane l n s).dispatchOne? l = none := by
  induction n generalizing s with
  | zero =>
    cases one : s.dispatchOne? l with
    | none => exact one
    | some t => exact absurd ((State.dispatchOne?_sends one).freeNumbers_lt rising) (by omega)
  | succ n ih =>
    unfold State.dispatchLane
    split
    next one => exact one
    next t one =>
      have sends := State.dispatchOne?_sends one
      exact ih (sends.rising rising) (by have fewer := sends.freeNumbers_lt rising; omega)

theorem Lane.freeNumbers_card_le (x : Lane) : x.freeNumbers.card ≤ 32 :=
  (Finset.card_filter_le _ _).trans_eq (Finset.card_range 32)

/-- What the dispatches of lane `l` leave: its queue loses parts from its head alone, and no other lane changes. -/
theorem State.dispatchLane_sends (l : LaneId) (n : Nat) (s : State) :
    (∃ taken, (s.lane l).queue = taken ++ ((State.dispatchLane l n s).lane l).queue ∧ taken.length ≤ n) ∧
      ((s.lane l).state = .offline → State.dispatchLane l n s = s) ∧
      ∀ m, m ≠ l → (State.dispatchLane l n s).lane m = s.lane m := by
  induction n generalizing s with
  | zero => exact ⟨⟨[], rfl, Nat.le_refl _⟩, fun _ => rfl, fun _ _ => rfl⟩
  | succ n ih =>
    unfold State.dispatchLane
    split
    · exact ⟨⟨[], rfl, Nat.zero_le _⟩, fun _ => rfl, fun _ _ => rfl⟩
    next t one =>
      have sends := State.dispatchOne?_sends one
      obtain ⟨⟨taken, queue, few⟩, -, others⟩ := ih t
      obtain ⟨first, before, single⟩ := sends.queue
      refine ⟨⟨first ++ taken, ?_, ?_⟩, fun offline => absurd offline sends.online,
        fun m other => (others m other).trans (sends.others m other)⟩
      · rw [before, queue, List.append_assoc]
      · rw [List.length_append]
        omega

theorem State.dispatchPriming?_none_congr {s t : State} {l : LaneId} (lane : t.lane l = s.lane l)
    (library : t.library = s.library) {n : Nat} (idle : s.dispatchPriming? l n = none) : t.dispatchPriming? l n = none := by
  have entry (h : Nat) : t.entry? h = s.entry? h := State.entry?_congr (congrArg Library.samples library) h
  unfold State.dispatchPriming? at idle ⊢
  dsimp only at idle ⊢
  rw [lane]
  by_cases many : primingLimit ≤ (s.lane l).primingOutstanding
  · exact if_pos many
  rw [if_neg many] at idle ⊢
  cases list : (s.lane l).primingList with
  | nil => rfl
  | cons h rest =>
    cases lowest : lowestUnread (s.lane l).segments with
    | none => rfl
    | some j =>
      rw [list, lowest] at idle
      dsimp only at idle ⊢
      rw [entry]
      cases listed : s.entry? h with
      | none => rfl
      | some e =>
        cases segment : (s.lane l).segments[j]? with
        | none => rfl
        | some g =>
          rw [listed, segment] at idle
          cases idle

/-- R89: whether a lane can send depends on that lane and on the sample map. -/
theorem State.dispatchOne?_none_congr {s t : State} {l : LaneId} (lane : t.lane l = s.lane l)
    (library : t.library = s.library) (idle : s.dispatchOne? l = none) : t.dispatchOne? l = none := by
  unfold State.dispatchOne? at idle ⊢
  dsimp only at idle ⊢
  rw [lane]
  by_cases cannot : (s.lane l).state = .offline ∨ readNumbers ≤ (s.lane l).readsOutstanding
  · exact if_pos cannot
  rw [if_neg cannot] at idle ⊢
  cases free : (s.lane l).freeNumber? with
  | none => rfl
  | some n =>
    cases queue : (s.lane l).queue with
    | nil =>
      rw [free, queue] at idle
      exact State.dispatchPriming?_none_congr lane library idle
    | cons x rest =>
      rw [free, queue] at idle
      cases idle

/-- R89: every lane dispatches in its turn, as the lanes before it have left it. -/
theorem State.dispatch_lane (s : State) (l : LaneId) :
    ∃ r : State, r.lane l = s.lane l ∧ r.library = s.library ∧
      s.dispatch.lane l = (State.dispatchLane l 32 r).lane l := by
  have skips {m : LaneId} (other : l ≠ m) (u : State) : (State.dispatchLane m 32 u).lane l = u.lane l := by
    obtain ⟨-, -, others⟩ := State.dispatchLane_sends m 32 u
    exact others l other
  have library (m : LaneId) (u : State) : (State.dispatchLane m 32 u).library = u.library :=
    (State.dispatchLane_goes m 32 u).only.library (by decide)
  obtain ⟨a, isA⟩ : ∃ a, a = State.dispatchLane .lane0 32 s := ⟨_, rfl⟩
  obtain ⟨b, isB⟩ : ∃ b, b = State.dispatchLane .lane1 32 a := ⟨_, rfl⟩
  obtain ⟨c, isC⟩ : ∃ c, c = State.dispatchLane .lane2 32 b := ⟨_, rfl⟩
  have dispatched : s.dispatch = State.dispatchLane .lane3 32 c := by
    rw [isC, isB, isA]
    rfl
  have libraryA : a.library = s.library := isA ▸ library .lane0 s
  have libraryB : b.library = s.library := (isB ▸ library .lane1 a).trans libraryA
  have libraryC : c.library = s.library := (isC ▸ library .lane2 b).trans libraryB
  have skipsA (other : l ≠ .lane0) : a.lane l = s.lane l := isA ▸ skips other s
  have skipsB (other : l ≠ .lane1) : b.lane l = a.lane l := isB ▸ skips other a
  have skipsC (other : l ≠ .lane2) : c.lane l = b.lane l := isC ▸ skips other b
  have skipsD (other : l ≠ .lane3) : s.dispatch.lane l = c.lane l := dispatched ▸ skips other c
  cases l with
  | lane0 =>
    refine ⟨s, rfl, rfl, ?_⟩
    rw [skipsD (by decide), skipsC (by decide), skipsB (by decide), isA]
  | lane1 =>
    refine ⟨a, skipsA (by decide), libraryA, ?_⟩
    rw [skipsD (by decide), skipsC (by decide), isB]
  | lane2 =>
    refine ⟨b, (skipsB (by decide)).trans (skipsA (by decide)), libraryB, ?_⟩
    rw [skipsD (by decide), isC]
  | lane3 =>
    refine ⟨c, (skipsC (by decide)).trans ((skipsB (by decide)).trans (skipsA (by decide))), libraryC, ?_⟩
    rw [dispatched]

/-- A state that differs in its slots and lanes alone. -/
theorem State.ChangesOnly.eq_rings {s t : State} (h : s.ChangesOnly t [.slots, .lanes]) :
    t = { s with slots := t.slots, lanes := t.lanes } :=
  (h.wider (by decide)).eq_set.trans (by
    rw [h.port (by decide), h.report (by decide), h.cadence (by decide), h.pass (by decide), h.voices (by decide)])

/-- Settles O51: one dispatch, case by case; that none is left; and what dispatch leaves. -/
theorem dispatchFrame : Obligations.DispatchFrame := by
  refine ⟨fun s l => ⟨fun cannot rising => ?_, fun number below online few rising free taken => ?_⟩,
    fun s rising l => ?_, fun s => ⟨s.dispatch.slots, s.dispatch.lanes, ?_, fun l => ?_⟩⟩
  · rw [← or_assoc] at cannot
    rcases cannot with blocked | full
    · exact State.dispatchOne?_none blocked
    · exact State.dispatchOne?_full (Lane.freeNumber?_eq_none rising full)
  · have lowest : (s.lane l).freeNumber? = some number :=
      (Lane.freeNumber?_eq_some rising).mpr ⟨below, free, taken⟩
    refine ⟨fun n rest slot queue held => ?_, fun queue cannot => ?_,
      fun h more j g e queue room list entry segment unread first => ?_⟩
    · rw [State.dispatchOne?_queue online few lowest queue, State.dispatchStream_eq held]
    · rw [State.dispatchOne?_priming online few lowest queue, State.dispatchPriming?_none cannot]
    · rw [State.dispatchOne?_priming online few lowest queue,
        State.dispatchPriming?_eq room list entry segment (lowestUnread_eq_some segment unread first)]
  · obtain ⟨r, lane, library, is⟩ := s.dispatch_lane l
    have settled : (State.dispatchLane l 32 r).dispatchOne? l = none :=
      State.dispatchLane_settled 32 (by rw [lane]; exact rising l) (Lane.freeNumbers_card_le _)
    refine State.dispatchOne?_none_congr is ?_ settled
    rw [(State.dispatch_goes s).only.library (by decide), (State.dispatchLane_goes l 32 r).only.library (by decide), library]
  · have only := (State.dispatch_goes s).only
    exact only.eq_rings
  · obtain ⟨r, lane, -, is⟩ := s.dispatch_lane l
    obtain ⟨queue, offline, -⟩ := State.dispatchLane_sends l 32 r
    have kept := s.dispatch_lanesOnly
    rw [← is, lane] at queue
    refine ⟨queue, kept.state (by decide) l, kept.present (by decide) l, kept.errors (by decide) l,
      kept.window (by decide) l, kept.primingList (by decide) l, fun away => ?_⟩
    show s.dispatch.lane l = _
    rw [is, offline (by rw [lane]; exact away), lane]

end Sys2Proof.Machine
end

section
/-! SUPPORT. The order of a lane's fetch queue (R69, R70). -/

namespace Sys2Proof.Machine

/-- R70: the place of a part in its queue. -/
theorem queueInsert_split (q : List QueueEntry) (n : QueueEntry) :
    ∃ ahead behind, q = ahead ++ behind ∧ queueInsert q n = ahead ++ n :: behind ∧
      (∀ m ∈ ahead, isBefore n.deadline m.deadline = false) ∧
      ∀ m ∈ behind.head?, isBefore n.deadline m.deadline = true := by
  induction q with
  | nil => exact ⟨[], [], rfl, rfl, nofun, nofun⟩
  | cons x rest ih =>
    by_cases before : isBefore n.deadline x.deadline = true
    · refine ⟨[], x :: rest, rfl, if_pos before, nofun, fun m mem => ?_⟩
      obtain rfl := Option.some.inj mem
      exact before
    · obtain ⟨ahead, behind, split, placed, passed, next⟩ := ih
      refine ⟨x :: ahead, behind, congrArg (x :: ·) split, (if_neg before).trans (congrArg (x :: ·) placed), ?_, next⟩
      exact List.forall_mem_cons.mpr ⟨Bool.eq_false_iff.mpr before, passed⟩

theorem mem_queueInsert {q : List QueueEntry} {n m : QueueEntry} : m ∈ queueInsert q n ↔ m = n ∨ m ∈ q := by
  obtain ⟨ahead, behind, split, placed, -, -⟩ := queueInsert_split q n
  rw [placed, split, List.mem_append, List.mem_cons, List.mem_append]
  tauto

theorem mem_foldl_queueInsert {l q : List QueueEntry} {m : QueueEntry} :
    m ∈ l.foldl queueInsert q ↔ m ∈ l ∨ m ∈ q := by
  induction l generalizing q with
  | nil => simp
  | cons n l ih =>
    rw [List.foldl_cons, ih, mem_queueInsert, List.mem_cons]
    tauto

/-- Deadlines within half of the circle from one origin compare as their distances from it do. -/
theorem isBefore_iff_distance {a b origin : PeriodIndex} (ha : (a - origin).toNat < 2 ^ 31)
    (hb : (b - origin).toNat < 2 ^ 31) :
    isBefore a b = true ↔ (a - origin).toNat < (b - origin).toNat := by
  rw [isBefore, Bool.and_eq_true, decide_eq_true_eq, decide_eq_true_eq]
  bv_omega

/-- R70: deadlines within half of the circle stay in order. -/
theorem queueInsert_ordered {q : List QueueEntry} {n : QueueEntry} {origin : PeriodIndex}
    (near : ∀ m ∈ n :: q, (m.deadline - origin).toNat < 2 ^ 31)
    (ordered : q.Pairwise fun a b => (a.deadline - origin).toNat ≤ (b.deadline - origin).toNat) :
    (queueInsert q n).Pairwise fun a b => (a.deadline - origin).toNat ≤ (b.deadline - origin).toNat := by
  obtain ⟨nearN, nearQ⟩ := List.forall_mem_cons.mp near
  induction q with
  | nil => exact List.pairwise_singleton _ _
  | cons x rest ih =>
    obtain ⟨first, later⟩ := List.pairwise_cons.mp ordered
    obtain ⟨nearX, nearRest⟩ := List.forall_mem_cons.mp nearQ
    have compare := isBefore_iff_distance nearN nearX
    rw [queueInsert]
    split
    next before =>
      have lower := compare.mp before
      refine List.pairwise_cons.mpr ⟨List.forall_mem_cons.mpr ⟨Nat.le_of_lt lower, fun m mem => ?_⟩, ordered⟩
      exact Nat.le_trans (Nat.le_of_lt lower) (first m mem)
    next after =>
      have higher : (x.deadline - origin).toNat ≤ (n.deadline - origin).toNat :=
        Nat.le_of_not_lt fun lower => after (compare.mpr lower)
      refine List.pairwise_cons.mpr ⟨fun m mem => ?_,
        ih (List.forall_mem_cons.mpr ⟨nearN, nearRest⟩) later nearRest⟩
      rcases mem_queueInsert.mp mem with rfl | mem
      · exact higher
      · exact first m mem

end Sys2Proof.Machine
end

section
/-! SUPPORT. The slots of a ring, operation by operation (R72 to R76, R80, R81). -/

namespace Sys2Proof.Machine

/-! ### Operations that touch the slots of one record -/

/-- Operations that each touch one slot of record `v`, no slot twice. -/
theorem foldl_slot? {α : Type} {P : State → Prop} {f : State → α → State} {v : Nat} {place : α → Nat}
    {made : α → Option Slot → Option Slot} (keeps : ∀ s a, P s → P (f s a))
    (step : ∀ s a, P s → place a < 8 → ∀ w i, i < 8 →
      (f s a).slot? w i = if w = v ∧ i = place a then made a (s.slot? w i) else s.slot? w i)
    {rows : List α} (inRing : ∀ a ∈ rows, place a < 8) (distinct : (rows.map place).Nodup) {s : State} (holds : P s) :
    (∀ a ∈ rows, (rows.foldl f s).slot? v (place a) = made a (s.slot? v (place a))) ∧
      ∀ w i, i < 8 → (w ≠ v ∨ i ∉ rows.map place) → (rows.foldl f s).slot? w i = s.slot? w i := by
  induction rows generalizing s with
  | nil => exact ⟨nofun, fun _ _ _ _ => rfl⟩
  | cons b rows ih =>
    rw [List.map_cons, List.nodup_cons] at distinct
    obtain ⟨fresh, distinct⟩ := distinct
    obtain ⟨here, inRing⟩ := List.forall_mem_cons.mp inRing
    obtain ⟨listed, others⟩ := ih inRing distinct (keeps s b holds)
    have stepped := step s b holds here
    refine ⟨List.forall_mem_cons.mpr ⟨?_, fun a mem => ?_⟩, fun w i inside outside => ?_⟩
    · rw [List.foldl_cons, others v _ here (.inr fresh), stepped v _ here, if_pos ⟨rfl, rfl⟩]
    · have other : ¬ (v = v ∧ place a = place b) := fun ⟨_, same⟩ =>
        fresh (same ▸ List.mem_map_of_mem mem)
      rw [List.foldl_cons, listed a mem, stepped v _ (inRing a mem), if_neg other]
    · rw [List.map_cons, List.mem_cons, not_or] at outside
      have other : ¬ (w = v ∧ i = place b) := by
        rintro ⟨same, place⟩
        rcases outside with different | ⟨notFirst, -⟩
        · exact different same
        · exact notFirst place
      rw [List.foldl_cons, others w i inside (outside.imp_right And.right), stepped w i inside, if_neg other]

/-- The same, for all eight slots of the ring. -/
theorem foldl_range_slot? {f : State → Nat → State} {v : Nat} {made : Option Slot → Option Slot}
    (step : ∀ s j, j < 8 → ∀ w i, i < 8 →
      (f s j).slot? w i = if w = v ∧ i = j then made (s.slot? w i) else s.slot? w i)
    (s : State) (w i : Nat) (hi : i < 8) :
    ((List.range 8).foldl f s).slot? w i = if w = v then made (s.slot? w i) else s.slot? w i := by
  obtain ⟨listed, others⟩ := foldl_slot? (P := fun _ => True) (place := id) (made := fun _ => made)
    (fun _ _ _ => trivial) (fun s j _ => step s j) (rows := List.range 8) (fun j mem => List.mem_range.mp mem)
    (by rw [List.map_id]; exact List.nodup_range) (s := s) trivial
  split
  next same => exact same ▸ listed i (List.mem_range.mpr hi)
  next other => exact others w i hi (.inl other)

theorem slotIndex_eq_iff {v w i j : Nat} (hi : i < 8) (hj : j < 8) :
    slotIndex w i = slotIndex v j ↔ w = v ∧ i = j :=
  ⟨slotIndex_inj hi hj, fun ⟨same, place⟩ => by rw [same, place]⟩

/-! ### A late start -/

theorem State.shiftSlot_slot? (s : State) {v : Nat} (delta : PeriodIndex) {j : Nat} (hj : j < 8) (w i : Nat) (hi : i < 8) :
    (s.shiftSlot v delta j).slot? w i =
      if w = v ∧ i = j then (s.slot? w i).map fun slot =>
        if slot.state ≠ .draining then { slot with deadline := slot.deadline + delta } else slot
      else s.slot? w i := by
  by_cases here : w = v ∧ i = j
  · obtain ⟨rfl, rfl⟩ := here
    rw [if_pos ⟨rfl, rfl⟩, State.shiftSlot]
    cases held : s.slot? w i with
    | none => exact held
    | some slot =>
      have holds : holdsChunk slot = true ↔ slot.state ≠ .draining := bne_iff_ne
      dsimp only
      by_cases draining : slot.state ≠ .draining
      · rw [if_pos (holds.mpr draining), State.slot?_putSlot, if_pos rfl, Option.map_some, if_pos draining]
      · rw [if_neg (fun h => draining (holds.mp h)), held, Option.map_some, if_neg draining]
  · rw [if_neg here, State.shiftSlot]
    split
    · rfl
    · split
      · rw [State.slot?_putSlot, if_neg (fun same => here ((slotIndex_eq_iff hi hj).mp same))]
      · rfl

theorem State.replaceParts_slots (s : State) (v : Nat) : (s.replaceParts v).slots = s.slots := rfl

theorem State.replaceParts_slot? (s : State) (v w j : Nat) : (s.replaceParts v).slot? w j = s.slot? w j := rfl

theorem State.shiftDeadlines_slot? (s : State) (v : Nat) (delta : PeriodIndex) (w j : Nat) (hj : j < 8) :
    (s.shiftDeadlines v delta).slot? w j = (s.slot? w j).map fun slot =>
      if w = v ∧ slot.state ≠ .draining then { slot with deadline := slot.deadline + delta } else slot := by
  rw [State.shiftDeadlines, State.replaceParts_slot?, ringSlots,
    foldl_range_slot? (f := fun r j => r.shiftSlot v delta j) (fun r _ => r.shiftSlot_slot? delta) s w j hj]
  by_cases same : w = v
  · simp only [same, true_and, if_true]
  · simp only [same, false_and, if_false, Option.map_id']

/-- R72: the entries of a voice's WAITING parts, in slot and part order. -/
theorem waitingEntries_eq (v : Nat) (q : List QueueEntry) :
    waitingEntries v q = (List.range 8).flatMap fun j =>
      (q.filter fun n => n.voice == v && n.slot == j && (n.part == 0) == true) ++
        q.filter fun n => n.voice == v && n.slot == j && (n.part == 0) == false := by
  refine congrArg (fun f => (List.range 8).flatMap f) (funext fun j => ?_)
  simp only [beq_true, beq_false, bne]

theorem mem_waitingEntries {v : Nat} {q : List QueueEntry} {n : QueueEntry} :
    n ∈ waitingEntries v q ↔ n ∈ q ∧ n.voice = v ∧ n.slot < 8 := by
  simp only [waitingEntries_eq, List.mem_flatMap, List.mem_range, List.mem_append, List.mem_filter, Bool.and_eq_true,
    beq_iff_eq]
  constructor
  · rintro ⟨j, inside, ⟨mem, ⟨voice, rfl⟩, -⟩ | ⟨mem, ⟨voice, rfl⟩, -⟩⟩ <;> exact ⟨mem, voice, inside⟩
  · rintro ⟨mem, voice, inside⟩
    refine ⟨n.slot, inside, ?_⟩
    cases first : n.part == 0
    · exact .inr ⟨mem, ⟨voice, rfl⟩, rfl⟩
    · exact .inl ⟨mem, ⟨voice, rfl⟩, beq_iff_eq.mp first⟩

/-- R69, R72: a queue entry with the deadline that its slot of record `v` has in `t`. -/
def datedBy (t : State) (v : Nat) (n : QueueEntry) : QueueEntry :=
  match t.slot? v n.slot with
  | none => n
  | some slot => { n with deadline := slot.deadline }

theorem State.redated_of_voice {r t : State} {v : Nat} (slots : t.slots = r.slots) {n : QueueEntry} (voice : n.voice = v) :
    r.redated n = datedBy t v n := by
  have held : t.slot? v n.slot = r.slot? n.voice n.slot := by rw [State.slot?, State.slot?, slots, voice]
  rw [State.redated, datedBy, held] <;> rfl

theorem State.shiftDeadlines_lane (s : State) (v : Nat) (delta : PeriodIndex) (l : LaneId) :
    (s.shiftDeadlines v delta).lane l =
      { s.lane l with
        queue := ((waitingEntries v (s.lane l).queue).map (datedBy (s.shiftDeadlines v delta) v)).foldl queueInsert
          ((s.lane l).queue.filter fun n => n.voice != v) } := by
  have shifted : (((List.range ringSlots).foldl (fun r j => r.shiftSlot v delta j) s).lane l) = s.lane l := by
    have only := (State.foldl_goes (fun r j => r.shiftSlot v delta j) (fun r j => r.shiftSlot_goes v delta j)
      (List.range ringSlots) s).only
    rw [State.lane, only.lanes (by decide), State.lane]
  have redated : (waitingEntries v (s.lane l).queue).map
      ((List.range ringSlots).foldl (fun r j => r.shiftSlot v delta j) s).redated =
      (waitingEntries v (s.lane l).queue).map (datedBy (s.shiftDeadlines v delta) v) :=
    List.map_congr_left fun n mem => by
      obtain ⟨-, voice, -⟩ := mem_waitingEntries.mp mem
      exact State.redated_of_voice (by rw [State.shiftDeadlines, State.replaceParts_slots]) voice
  rw [← redated, State.shiftDeadlines, State.lane_replaceParts, shifted]

/-! ### Slots given back -/

theorem State.unqueueSlot_lane (s : State) (v j : Nat) (l : LaneId) :
    (s.unqueueSlot v j).lane l =
      { s.lane l with queue := (s.lane l).queue.filter fun n => !(n.voice == v && n.slot == j) } :=
  s.lane_setLanes_map _ l

theorem State.cancelSlot_slot? (s : State) {v j : Nat} (hj : j < 8) (w i : Nat) (hi : i < 8) :
    (s.cancelSlot v j).slot? w i = if w = v ∧ i = j then (s.slot? w i).bind abandonSlot else s.slot? w i := by
  have unqueued (t : State) : (t.unqueueSlot v j).slot? w i = t.slot? w i := rfl
  have places := slotIndex_eq_iff (v := v) (w := w) hi hj
  rw [State.cancelSlot]
  by_cases here : w = v ∧ i = j
  · obtain ⟨rfl, rfl⟩ := here
    rw [if_pos ⟨rfl, rfl⟩]
    cases held : s.slot? w i with
    | none => exact held
    | some slot =>
      rw [Option.bind_some]
      cases kept : abandonSlot slot with
      | none =>
        dsimp only
        rw [kept]
        exact (unqueued _).trans ((s.slot?_clearSlot w i w i).trans (if_pos rfl))
      | some x =>
        dsimp only
        rw [kept]
        exact (unqueued _).trans ((s.slot?_putSlot w i x w i).trans (if_pos rfl))
  · rw [if_neg here]
    have other : ¬ slotIndex w i = slotIndex v j := fun same => here (places.mp same)
    split
    · rfl
    · split
      · exact (unqueued _).trans ((s.slot?_clearSlot v j w i).trans (if_neg other))
      · exact (unqueued _).trans ((s.slot?_putSlot v j _ w i).trans (if_neg other))

theorem State.cancelSlot_lane (s : State) (v j : Nat) (l : LaneId) :
    (s.cancelSlot v j).lane l =
      { s.lane l with queue := (s.lane l).queue.filter fun n =>
          !(n.voice == v && n.slot == j && (s.slot? v j).isSome) } := by
  rw [State.cancelSlot]
  cases s.slot? v j with
  | none =>
    have all : (s.lane l).queue.filter (fun n => !(n.voice == v && n.slot == j && (none : Option Slot).isSome)) =
        (s.lane l).queue := List.filter_eq_self.mpr fun n _ => by simp
    rw [all]
  | some slot =>
    have same : (s.lane l).queue.filter (fun n => !(n.voice == v && n.slot == j && (some slot).isSome)) =
        (s.lane l).queue.filter fun n => !(n.voice == v && n.slot == j) :=
      List.filter_congr fun n _ => by simp
    rw [same]
    dsimp only
    split <;> exact State.unqueueSlot_lane _ v j l

/-- R81: the slots of a cancelled ring. -/
theorem State.cancelRing_slot? (s : State) (v w j : Nat) (hj : j < 8) :
    (s.cancelRing v).slot? w j = if w = v then (s.slot? w j).bind abandonSlot else s.slot? w j := by
  rw [State.cancelRing, ringSlots, foldl_range_slot? (f := fun r j => r.cancelSlot v j) (v := v)
    (made := fun held => held.bind abandonSlot) (fun r _ hj => r.cancelSlot_slot? hj) s w j hj]

theorem State.foldl_cancelSlot_lane {rows : List Nat} (inRing : ∀ j ∈ rows, j < 8) (distinct : rows.Nodup) (s : State)
    (v : Nat) (l : LaneId) :
    (rows.foldl (fun r j => r.cancelSlot v j) s).lane l =
      { s.lane l with queue := (s.lane l).queue.filter fun n =>
          !(n.voice == v && decide (n.slot ∈ rows) && (s.slot? v n.slot).isSome) } := by
  induction rows generalizing s with
  | nil =>
    have all : (s.lane l).queue.filter (fun n =>
        !(n.voice == v && decide (n.slot ∈ []) && (s.slot? v n.slot).isSome)) = (s.lane l).queue :=
      List.filter_eq_self.mpr fun n _ => by simp
    rw [all]
    rfl
  | cons j rows ih =>
    obtain ⟨fresh, distinct⟩ := List.nodup_cons.mp distinct
    obtain ⟨hj, inRing⟩ := List.forall_mem_cons.mp inRing
    have slots (i : Nat) (mem : i ∈ rows) : (s.cancelSlot v j).slot? v i = s.slot? v i := by
      rw [s.cancelSlot_slot? hj v i (inRing i mem), if_neg]
      rintro ⟨-, rfl⟩
      exact fresh mem
    rw [List.foldl_cons, ih inRing distinct, State.cancelSlot_lane]
    refine congrArg (fun q => { s.lane l with queue := q }) ?_
    rw [List.filter_filter]
    refine List.filter_congr fun n _ => ?_
    by_cases first : n.slot = j
    · subst first
      simp [fresh]
    · by_cases later : n.slot ∈ rows
      · simp [first, later, slots _ later]
      · simp [first, later]

theorem State.cancelRing_lane (s : State) (v : Nat) (l : LaneId) :
    (s.cancelRing v).lane l =
      { s.lane l with queue := (s.lane l).queue.filter fun n =>
          !(n.voice == v && decide (n.slot < 8) && (s.slot? v n.slot).isSome) } := by
  rw [State.cancelRing, ringSlots,
    State.foldl_cancelSlot_lane (fun j mem => List.mem_range.mp mem) List.nodup_range]
  simp only [List.mem_range]

end Sys2Proof.Machine
end

section
/-! SUPPORT. Chunks asked for: the prefill of a start and the refill of a window (R73 to R76); slots given back (R80). -/

namespace Sys2Proof.Machine

/-! ### A chunk asked of its slot -/

/-- R73: what becomes of a slot that is asked for chunk `k`, on a lane that is OFFLINE or not. -/
def requestedSlot (offline : Bool) (period : Nat) (x : Voice) (e : SampleEntry) (k : Nat) : Option Slot → Option Slot
  | none => some
      { state := if offline then .lost else .queued, chunk := k, retryUsed := false, outstanding := 0, successor := none,
        deadline := x.startPeriod + BitVec.ofNat 32 ((x.offset + k * 1024) / period),
        marks := (chunkParts x e k).map fun _ => if offline then .failed else .waiting }
  | some slot => if slot.state = .draining then some { slot with successor := some k } else some slot

theorem chunkTaken_slots (s : State) (v j : Nat) (x : Voice) (e : SampleEntry) (k w i : Nat) :
    (chunkTaken s v j x e k).slot? w i =
      if slotIndex w i = slotIndex v j then
        requestedSlot (decide ((s.lane e.lane).state = .offline)) s.config.period x e k none
      else s.slot? w i := by
  unfold chunkTaken
  by_cases offline : (s.lane e.lane).state = .offline
  · simp only [offline, if_true, decide_true]
    exact Table.get?_insert ..
  · simp only [offline, if_false, decide_false]
    exact Table.get?_insert ..

theorem chunkSlot_lt (x : Voice) (k : Nat) : chunkSlot x k < 8 := Nat.mod_lt _ (by decide)

theorem State.requestChunk_slot? (s : State) (v : Nat) (x : Voice) (e : SampleEntry) (k w i : Nat) (hi : i < 8) :
    (s.requestChunk v x e k).slot? w i =
      if w = v ∧ i = chunkSlot x k then
        requestedSlot (decide ((s.lane e.lane).state = .offline)) s.config.period x e k (s.slot? w i)
      else s.slot? w i := by
  have places := slotIndex_eq_iff (v := v) (w := w) hi (chunkSlot_lt x k)
  rw [State.requestChunk]
  by_cases here : w = v ∧ i = chunkSlot x k
  · obtain ⟨rfl, rfl⟩ := here
    rw [if_pos ⟨rfl, rfl⟩]
    cases held : s.slot? w (chunkSlot x k) with
    | none =>
      dsimp only
      rw [State.setUpChunk_eq, chunkTaken_slots, if_pos rfl]
    | some slot =>
      dsimp only [requestedSlot]
      split
      · rw [State.slot?_putSlot, if_pos rfl]
      · exact held
  · rw [if_neg here]
    have other : ¬ slotIndex w i = slotIndex v (chunkSlot x k) := fun same => here (places.mp same)
    split
    · rw [State.setUpChunk_eq, chunkTaken_slots, if_neg other]
    · split
      · rw [State.slot?_putSlot, if_neg other]
      · rfl

/-- Chunks asked of slots of their own, in any order. -/
theorem State.foldl_requestChunk_slot? (s : State) (v : Nat) (x : Voice) (e : SampleEntry) {chunks : List Nat}
    (distinct : (chunks.map (chunkSlot x)).Nodup) :
    (∀ k ∈ chunks, (chunks.foldl (fun r k => r.requestChunk v x e k) s).slot? v (chunkSlot x k) =
      requestedSlot (decide ((s.lane e.lane).state = .offline)) s.config.period x e k (s.slot? v (chunkSlot x k))) ∧
    ∀ w i, i < 8 → (w ≠ v ∨ i ∉ chunks.map (chunkSlot x)) →
      (chunks.foldl (fun r k => r.requestChunk v x e k) s).slot? w i = s.slot? w i := by
  refine foldl_slot? (P := fun r => (r.lane e.lane).state = (s.lane e.lane).state ∧ r.config = s.config)
    (made := requestedSlot (decide ((s.lane e.lane).state = .offline)) s.config.period x e)
    (fun r k ⟨state, config⟩ => ⟨((r.requestChunk_lanesOnly v x e k).state (by decide) e.lane).trans state,
      ((r.requestChunk_goes v x e k).only.config (by decide)).trans config⟩)
    (fun r k ⟨state, config⟩ _ w i hi => ?_) (fun k _ => chunkSlot_lt x k) distinct ⟨rfl, rfl⟩
  rw [State.requestChunk_slot? r v x e k w i hi, state, config]

/-! ### The prefill -/

theorem chunkFrames_eq : chunkFrames = 1024 := rfl

theorem chunkPastEnd_iff (x : Voice) (e : SampleEntry) (k : Nat) :
    chunkPastEnd x e k = true ↔ loopOf x e = none ∧ e.frames ≤ x.sourceOffset + k * 1024 := by
  rw [chunkPastEnd, Bool.and_eq_true, decide_eq_true_eq, Option.isNone_iff_eq_none]
  refine and_congr_right fun unlooped => ?_
  have frame : chunkFirstFrame x e k = x.sourceOffset + k * 1024 := by
    rw [chunkFirstFrame, sourceFrame, unlooped, chunkFrames_eq]
  rw [frame]

theorem chunkPastEnd_mono {x : Voice} {e : SampleEntry} {k k' : Nat} (le : k ≤ k') (past : chunkPastEnd x e k = true) :
    chunkPastEnd x e k' = true := by
  obtain ⟨unlooped, behind⟩ := (chunkPastEnd_iff x e k).mp past
  have later : k * 1024 ≤ k' * 1024 := Nat.mul_le_mul_right _ le
  exact (chunkPastEnd_iff x e k').mpr ⟨unlooped, Nat.le_trans behind (Nat.add_le_add_left later _)⟩

theorem List.mem_takeWhile_of_pairwise {α : Type} {p : α → Bool} {l : List α}
    (falls : l.Pairwise fun a b => p b = true → p a = true) {a : α} (mem : a ∈ l) (holds : p a = true) :
    a ∈ l.takeWhile p := by
  induction l with
  | nil => cases mem
  | cons b l ih =>
    obtain ⟨first, later⟩ := List.pairwise_cons.mp falls
    rcases List.mem_cons.mp mem with rfl | mem
    · rw [List.takeWhile_cons_of_pos holds]
      exact List.mem_cons_self ..
    · rw [List.takeWhile_cons_of_pos (first a mem holds)]
      exact List.mem_cons_of_mem _ (ih later mem)

/-- R74: the chunks that a start asks for. -/
def prefillChunks (x : Voice) (e : SampleEntry) : List Nat :=
  ((List.range 8).map fun i => x.headChunks + i).takeWhile fun k => !chunkPastEnd x e k

theorem prefillFrom_eq (v : Nat) (x : Voice) (e : SampleEntry) (n k : Nat) (s : State) :
    State.prefillFrom v x e n k s =
      (((List.range n).map fun i => k + i).takeWhile fun k => !chunkPastEnd x e k).foldl
        (fun r k => r.requestChunk v x e k) s := by
  induction n generalizing k s with
  | zero => rfl
  | succ n ih =>
    have chunks : (List.range (n + 1)).map (fun i => k + i) = k :: (List.range n).map fun i => k + 1 + i := by
      rw [List.range_succ_eq_map, List.map_cons, List.map_map]
      exact congrArg (k :: ·) (List.map_congr_left fun i _ => by
        show k + (i + 1) = k + 1 + i
        omega)
    rw [State.prefillFrom, chunks]
    by_cases past : chunkPastEnd x e k = true
    · rw [if_pos past, List.takeWhile_cons_of_neg (by rw [past]; nofun)]
      rfl
    · rw [if_neg past, List.takeWhile_cons_of_pos (by rw [Bool.eq_false_iff.mpr past]; rfl), ih]
      rfl

theorem State.prefill_eq (s : State) (v : Nat) (x : Voice) (e : SampleEntry) :
    s.prefill v x e = (prefillChunks x e).foldl (fun r k => r.requestChunk v x e k) s :=
  prefillFrom_eq v x e 8 x.headChunks s

theorem chunkSlot_offset (x : Voice) {i : Nat} (hi : i < 8) : chunkSlot x (x.headChunks + i) = i := by
  rw [chunkSlot, Nat.add_sub_cancel_left]
  exact Nat.mod_eq_of_lt hi

theorem mem_prefillChunks {x : Voice} {e : SampleEntry} {k : Nat} :
    k ∈ prefillChunks x e ↔ (∃ i < 8, k = x.headChunks + i) ∧ chunkPastEnd x e k = false := by
  constructor
  · intro mem
    obtain ⟨i, inside, is⟩ := List.mem_map.mp ((List.takeWhile_sublist _).subset mem)
    have kept := List.mem_takeWhile_imp mem
    rw [Bool.not_eq_true'] at kept
    exact ⟨⟨i, List.mem_range.mp inside, is.symm⟩, kept⟩
  · rintro ⟨⟨i, inside, rfl⟩, kept⟩
    refine List.mem_takeWhile_of_pairwise ?_ (List.mem_map.mpr ⟨i, List.mem_range.mpr inside, rfl⟩)
      (by rw [kept]; rfl)
    rw [List.pairwise_map]
    refine List.pairwise_lt_range.imp fun {a b} lower keeps => ?_
    rw [Bool.not_eq_true'] at keeps ⊢
    exact Bool.eq_false_iff.mpr fun past => by
      rw [chunkPastEnd_mono (Nat.add_le_add_left (Nat.le_of_lt lower) _) past] at keeps
      cases keeps

theorem prefillChunks_distinct (x : Voice) (e : SampleEntry) : ((prefillChunks x e).map (chunkSlot x)).Nodup := by
  have whole : ((List.range 8).map fun i => x.headChunks + i).map (chunkSlot x) = List.range 8 := by
    rw [List.map_map]
    exact (List.map_congr_left fun i mem => chunkSlot_offset x (List.mem_range.mp mem)).trans (List.map_id _)
  refine ((List.takeWhile_sublist _).map (chunkSlot x)).nodup ?_
  rw [whole]
  exact List.nodup_range

/-! ### The refill -/

theorem mem_windowChunks {x : Voice} {k : Nat} : k ∈ windowChunks x ↔ windowStart x ≤ k ∧ k < windowStart x + 8 := by
  simp only [windowChunks, ringSlots, List.mem_map, List.mem_range]
  exact ⟨fun ⟨i, below, is⟩ => ⟨by omega, by omega⟩, fun ⟨from_, below⟩ => ⟨k - windowStart x, by omega, by omega⟩⟩

/-- R62, R75: the chunks of a window have slots of their own. -/
theorem chunkSlot_inj_window {x : Voice} {k k' : Nat} (mem : k ∈ windowChunks x) (mem' : k' ∈ windowChunks x)
    (same : chunkSlot x k = chunkSlot x k') : k = k' := by
  have start : x.headChunks ≤ windowStart x := Nat.le_max_right _ _
  obtain ⟨low, high⟩ := mem_windowChunks.mp mem
  obtain ⟨low', high'⟩ := mem_windowChunks.mp mem'
  rw [chunkSlot, chunkSlot, ringSlots] at same
  omega

theorem windowChunks_nodup (x : Voice) : (windowChunks x).Nodup :=
  List.nodup_range.map fun _ _ same => Nat.add_left_cancel same

/-- R75: the chunk that a slot is committed to lies in the window, in its place. -/
theorem State.WindowsHold.committed {s : State} (holds : s.WindowsHold) {v j k : Nat} {x : Voice}
    (voice : s.voice? v = some x) (hj : j < 8) (committed : committedChunk (s.slot? v j) = some k) :
    k ∈ windowChunks x ∧ chunkSlot x k = j := by
  obtain ⟨-, -, -, wants⟩ := holds
  cases held : s.slot? v j with
  | none =>
    rw [held] at committed
    cases committed
  | some slot =>
    rw [held] at committed
    obtain ⟨y, is, head, place, from_, below⟩ := wants v j slot hj held k committed
    obtain rfl := Option.some.inj (voice.symm.trans is)
    exact ⟨mem_windowChunks.mpr ⟨Nat.max_le.mpr ⟨from_, head⟩, below⟩, place⟩

theorem mem_committedChunks {s : State} {v k : Nat} :
    k ∈ s.committedChunks v ↔ ∃ j < 8, committedChunk (s.slot? v j) = some k := by
  rw [State.committedChunks, List.mem_filterMap]
  exact exists_congr fun j => and_congr_left fun _ => List.mem_range

/-- R76: the chunks that a refill asks for. -/
def refillChunks (s : State) (v : Nat) (x : Voice) (e : SampleEntry) : List Nat :=
  (windowChunks x).filter fun k => !chunkPastEnd x e k && !(s.committedChunks v).contains k

theorem mem_refillChunks {s : State} {v : Nat} {x : Voice} {e : SampleEntry} {k : Nat} :
    k ∈ refillChunks s v x e ↔ k ∈ windowChunks x ∧ chunkPastEnd x e k = false ∧ k ∉ s.committedChunks v := by
  rw [refillChunks, List.mem_filter, Bool.and_eq_true, Bool.not_eq_true', Bool.not_eq_true', ← Bool.not_eq_true
    ((s.committedChunks v).contains k), List.contains_iff_mem]

theorem State.refillVoice_eq {s : State} {v : Nat} {x : Voice} {e : SampleEntry} (voice : s.voice? v = some x)
    (entry : s.entry? x.handle = some e) :
    s.refillVoice v =
      if ((s.committedChunks v).filter (windowChunks x).contains).length ≤ s.config.lowWater then
        (refillChunks s v x e).foldl (fun r k => r.requestChunk v x e k) s
      else s := by
  rw [State.refillVoice, voice]
  dsimp only
  rw [State.entryOf?, entry]
  dsimp only
  refine if_congr Iff.rfl ?_ rfl
  rw [refillChunks, List.foldl_filter]
  refine congrArg (fun f => (windowChunks x).foldl f s) (funext fun r => funext fun k => ?_)
  cases chunkPastEnd x e k <;> cases (s.committedChunks v).contains k <;> rfl

/-- R75, R76: after a refill, every chunk of the window up to the sample end is held. -/
theorem State.refill_commits {s : State} {v : Nat} {x : Voice} {e : SampleEntry} (holds : s.WindowsHold)
    (voice : s.voice? v = some x) {k : Nat} (mem : k ∈ windowChunks x) (inside : chunkPastEnd x e k = false) :
    committedChunk (((refillChunks s v x e).foldl (fun r k => r.requestChunk v x e k) s).slot? v (chunkSlot x k)) =
      some k := by
  have window {k : Nat} (asked : k ∈ refillChunks s v x e) : k ∈ windowChunks x := (mem_refillChunks.mp asked).1
  have distinct : ((refillChunks s v x e).map (chunkSlot x)).Nodup :=
    ((windowChunks_nodup x).filter _).map_on fun a ma b mb same => chunkSlot_inj_window (window ma) (window mb) same
  obtain ⟨asked, others⟩ := s.foldl_requestChunk_slot? v x e distinct
  by_cases committed : k ∈ s.committedChunks v
  · obtain ⟨j, hj, is⟩ := mem_committedChunks.mp committed
    obtain ⟨-, place⟩ := holds.committed voice hj is
    subst place
    have unasked : chunkSlot x k ∉ (refillChunks s v x e).map (chunkSlot x) := by
      intro mapped
      obtain ⟨k', asked, same⟩ := List.mem_map.mp mapped
      obtain rfl := chunkSlot_inj_window (window asked) mem same
      exact (mem_refillChunks.mp asked).2.2 committed
    rw [others v _ hj (.inr unasked)]
    exact is
  · rw [asked k (mem_refillChunks.mpr ⟨mem, inside, committed⟩)]
    have free {c : Nat} (held : committedChunk (s.slot? v (chunkSlot x k)) = some c) : c = k := by
      obtain ⟨memC, place⟩ := holds.committed voice (chunkSlot_lt x k) held
      exact chunkSlot_inj_window memC mem place
    cases held : s.slot? v (chunkSlot x k) with
    | none => cases offline : decide ((s.lane e.lane).state = .offline) <;> rfl
    | some slot =>
      by_cases draining : slot.state = .draining
      · rw [requestedSlot, if_pos draining]
        exact if_pos draining
      · have commits : committedChunk (some slot) = some slot.chunk := if_neg draining
        have chunk : slot.chunk = k := free (by rw [held]; exact commits)
        rw [requestedSlot, if_neg draining, commits, chunk]

/-! ### A passed chunk -/

theorem State.passChunk_eq {s : State} {v j k : Nat} {x : Voice} {slot : Slot} (place : chunkSlot x k = j)
    (held : s.slot? v j = some slot) :
    s.passChunk v x k =
      match slot.state with
      | .full => s.clearSlot v j
      | .lost =>
        if slot.outstanding = 0 then s.clearSlot v j
        else s.putSlot v j { slot with state := .draining, successor := none }
      | .queued => (s.clearSlot v j).unqueueSlot v j
      | .inFlight =>
        if slot.outstanding = 0 then (s.clearSlot v j).unqueueSlot v j
        else (s.putSlot v j { slot with state := .draining, marks := failWaiting slot.marks,
                                        successor := none }).unqueueSlot v j
      | .draining =>
        if slot.successor = some k then s.putSlot v j { slot with successor := none } else s := by
  subst place
  rw [State.passChunk, held] <;> rfl

/-- R63, R80: a slot given back, its parts out of their queues. -/
theorem State.passChunk_unqueues {s t : State} {v j : Nat} (lanes : t.lanes = s.lanes) (l : LaneId) :
    (t.unqueueSlot v j).lane l =
      { s.lane l with queue := (s.lane l).queue.filter fun n => !(n.voice == v && n.slot == j) } := by
  rw [State.unqueueSlot_lane, State.lane, lanes, State.lane]

theorem datedBy_fields (t : State) (v : Nat) (n : QueueEntry) (voice : n.voice = v) :
    (datedBy t v n).voice = v ∧ (datedBy t v n).slot = n.slot ∧ (datedBy t v n).part = n.part ∧
      (datedBy t v n).address = n.address ∧ (datedBy t v n).unitCount = n.unitCount ∧
      ∀ slot, t.slot? v n.slot = some slot → (datedBy t v n).deadline = slot.deadline := by
  rw [datedBy]
  cases t.slot? v n.slot with
  | none => exact ⟨voice, rfl, rfl, rfl, rfl, nofun⟩
  | some slot => exact ⟨voice, rfl, rfl, rfl, rfl, fun _ same => congrArg Slot.deadline (Option.some.inj same)⟩

/-- R81: what a cancelled ring leaves of each slot. -/
theorem abandonSlot_bind (v w : Nat) (held : Option Slot) :
    (if w = v then held.bind abandonSlot else held) = held.bind fun slot =>
      if w ≠ v then some slot
      else if slot.outstanding = 0 then none
      else some { slot with state := .draining, marks := failWaiting slot.marks, successor := none } := by
  by_cases same : w = v
  · rw [if_pos same]
    refine congrArg held.bind (funext fun slot => ?_)
    rw [if_neg (not_not.mpr same)]
    rfl
  · rw [if_neg same]
    cases held with
    | none => rfl
    | some slot => exact (if_pos same).symm

/-- Settles O52, operation by operation. -/
theorem ringOperations : Obligations.RingOperations := by
  refine ⟨queueInsert_split, fun q n origin => queueInsert_ordered, fun s v x e k => ⟨fun empty => ?_,
      fun slot held => ⟨fun draining => ?_, fun other => ?_⟩⟩, fun s v x e => s.prefill_eq v x e,
    fun s v x e online => ⟨fun w j other hj => ?_, fun j hj => ?_⟩, fun s v delta => ⟨?_, fun w j hj => ?_, fun l => ?_⟩,
    fun s v j x k slot place held => ?_, fun s v => ⟨?_, fun w j hj => ?_, s.cancelRing_lane v⟩,
    fun s v j p k slot x e last voice entry successor => State.drainRead_successor last successor voice entry,
    fun s v x e holds voice entry => ?_⟩
  -- a chunk asked of its slot
  · have empty : s.slot? v (chunkSlot x k) = none := empty
    rw [State.requestChunk, empty]
    exact s.setUpChunk_eq v _ x e k
  · have held : s.slot? v (chunkSlot x k) = some slot := held
    rw [State.requestChunk, held]
    exact if_pos draining
  · have held : s.slot? v (chunkSlot x k) = some slot := held
    rw [State.requestChunk, held]
    exact if_neg other
  -- the prefill
  · obtain ⟨-, others⟩ := s.foldl_requestChunk_slot? v x e (prefillChunks_distinct x e)
    rw [State.prefill_eq]
    exact others w j hj (.inl other)
  · obtain ⟨asked, others⟩ := s.foldl_requestChunk_slot? v x e (prefillChunks_distinct x e)
    have place := chunkSlot_offset x hj
    rw [State.prefill_eq]
    dsimp only
    by_cases past : chunkPastEnd x e (x.headChunks + j) = true
    · rw [if_pos past]
      refine others v j hj (.inr fun mapped => ?_)
      obtain ⟨k, mem, same⟩ := List.mem_map.mp mapped
      obtain ⟨⟨i, hi, rfl⟩, inside⟩ := mem_prefillChunks.mp mem
      rw [chunkSlot_offset x hi] at same
      rw [same, past] at inside
      cases inside
    · rw [if_neg past]
      have mem : x.headChunks + j ∈ prefillChunks x e :=
        mem_prefillChunks.mpr ⟨⟨j, hj, rfl⟩, Bool.eq_false_iff.mpr past⟩
      have taken := asked _ mem
      rw [place, decide_eq_false online] at taken
      rw [taken]
      cases s.slot? v j <;> rfl
  -- a late start
  · exact (s.shiftDeadlines_goes v delta).only.eq_rings
  · exact s.shiftDeadlines_slot? v delta w j hj
  · have lane := s.shiftDeadlines_lane v delta l
    refine ⟨?_, fun n mem voice inside => ?_⟩
    · rw [waitingEntries_eq] at lane
      exact lane
    · refine ⟨datedBy (s.shiftDeadlines v delta) v n, ?_, datedBy_fields _ v n voice⟩
      rw [lane]
      exact mem_foldl_queueInsert.mpr
        (.inl (List.mem_map_of_mem (mem_waitingEntries.mpr ⟨mem, voice, inside⟩)))
  -- slots given back
  · have passed := State.passChunk_eq place held
    refine ⟨(s.passChunk_goes v x k).only.eq_rings, fun full => ?_, fun lost none => ?_, fun lost some => ?_,
      fun queued => ?_, fun inFlight none => ?_, fun inFlight some => ?_, fun draining same => ?_,
      fun draining other => ?_⟩
    · rw [passed, full]
      rfl
    · rw [passed, lost]
      exact if_pos none
    · rw [passed, lost]
      exact if_neg (Nat.pos_iff_ne_zero.mp some)
    · rw [passed, queued]
      exact ⟨rfl, State.passChunk_unqueues rfl⟩
    · rw [inFlight] at passed
      rw [passed.trans (if_pos none)]
      exact ⟨rfl, State.passChunk_unqueues rfl⟩
    · rw [inFlight] at passed
      rw [passed.trans (if_neg (Nat.pos_iff_ne_zero.mp some))]
      exact ⟨rfl, State.passChunk_unqueues rfl⟩
    · rw [passed, draining]
      exact if_pos same
    · rw [passed, draining]
      exact if_neg other
  · exact (s.cancelRing_changes v).eq_rings
  · rw [State.cancelRing_slot? s v w j hj]
    exact abandonSlot_bind v w _
  -- the refill
  · rw [State.refillVoice_eq voice entry]
    refine ⟨fun many => if_neg (Nat.not_le.mpr many), fun few => ?_, fun few k mem inside => ?_⟩
    · rw [if_pos (by exact few)]
      refine congrArg (fun chunks => List.foldl (fun r k => r.requestChunk v x e k) s chunks)
        (List.filter_congr fun k mem => ?_)
      have held : (((List.range 8).filterMap fun j => committedChunk (s.slot? v j)).filter
          (windowChunks x).contains).contains k = (s.committedChunks v).contains k := by
        rw [Bool.eq_iff_iff, List.contains_iff_mem, List.contains_iff_mem, List.mem_filter]
        exact and_iff_left (List.contains_iff_mem.mpr mem)
      exact congrArg (fun c => !chunkPastEnd x e k && !c) held.symm
    · rw [if_pos (by exact few)]
      exact State.refill_commits holds voice mem inside

end Sys2Proof.Machine
end

section
/-! SUPPORT. The requests that wait for a pass under way, and what a REPLY behind an occurrence leaves (R155, R164). -/

namespace Sys2Proof.Machine

theorem isRequest_self {r : Request} {kind : Nat} (is : r.kind = kind) (mark : r.mark = .unmarked) :
    isRequest kind r = true := by
  rw [isRequest, is, mark]
  exact beq_self_eq_true kind

/-- R164: the state that carries out the request: it is off the queue, and the unit BUSY with it. -/
theorem State.Takes.beginRequest {s : State} {r : Request} {rest : List Request} (h : s.Takes r rest) :
    s.beginRequest r =
      { s with port := { s.port with mgmtQueue := rest }, report := { s.report with busy := some r } } := by
  obtain ⟨head, -⟩ := h
  rw [State.beginRequest, head]
  rfl

/-- R105: a request that finishes between passes waits for the one under way, the unit BUSY. -/
theorem State.Takes.betweenPasses_waits {s : State} {r : Request} {rest : List Request} (h : s.Takes r rest)
    (pass : s.pass.isSome = true) (finish : Request → State → State) :
    (s.beginRequest r).betweenPasses r finish =
      { s with port := { s.port with mgmtQueue := rest }, report := { s.report with busy := some r } } :=
  (if_pos pass).trans h.beginRequest

theorem State.betweenPasses_finishes {s : State} {r : Request} (pass : s.pass = none)
    (finish : Request → State → State) : (s.beginRequest r).betweenPasses r finish = finish r (s.beginRequest r) :=
  if_neg (by rw [State.passUnderWay]; exact pass ▸ Bool.false_ne_true)

/-- R155: the reports with the REPLY in its place and the unit IDLE. -/
def Report.replied (q : Report) (r : Request) (a : Answer) : Report :=
  { q with control := q.control ++ [.reply r.source r.number r.kind a], busy := none }

theorem State.reply_eq (s : State) (r : Request) (a : Answer) : s.reply r a = s.setReport (s.report.replied r a) := rfl

theorem Report.replied_last (q : Report) (r : Request) (a : Answer) :
    (q.replied r a).control.getLast? = some (.reply r.source r.number r.kind a) :=
  List.getLast?_concat

/-- R119: a RESYNC of a tracker that searches already changes nothing. -/
theorem State.forceSearch_search {s : State} (search : s.cadence.state = .search) : s.forceSearch = s :=
  if_pos search

theorem State.forceSearch_other {s : State} (other : s.cadence.state ≠ .search) :
    s.forceSearch = { s with
      cadence := trackerResync s.cadence,
      report := s.report.raise (.cadenceState s.cadence.state s.cadence.misaligned .search false) } :=
  if_neg other

/-- R178: an occurrence's records do not depend on the request in progress. -/
theorem Report.raise_event_busy (q : Report) (r : Request) (c : Capture) (k : EventKind) :
    ({ q with busy := some r }.raise c).event k = (q.raise c).event k := by
  rw [Report.raise_event, Report.raise_event]
  rfl

/-- Settles O59: SEARCH is entered from another state alone, and the request is answered last. -/
theorem resync : Obligations.Resync := by
  intro s r rest takes kind mark
  have served : exec .resync s = .next ((s.beginRequest r).betweenPasses r State.finishResync) :=
    (exec_resync s).trans (takes.serve _ (isRequest_self kind mark))
  refine ⟨fun pass => ?_, fun pass search => ?_, fun pass other => ?_⟩
  · rw [served, takes.betweenPasses_waits pass]
  · rw [served, State.betweenPasses_finishes pass, State.finishResync,
      State.forceSearch_search (s := s.beginRequest r) search, takes.beginRequest_reply]
    rfl
  · have begun := takes.beginRequest
    refine ⟨({ s.report with busy := some r }.raise
      (.cadenceState s.cadence.state s.cadence.misaligned .search false)).replied r okAnswer, ?_, fun k => ?_, ?_, ?_, ?_, ?_⟩
    · rw [served, State.betweenPasses_finishes pass, State.finishResync,
        State.forceSearch_other (s := s.beginRequest r) other, begun]
      rfl
    · exact Report.raise_event_busy s.report r _ k
    · exact Report.raise_endList _ _
    · rfl
    · exact Report.raise_reading _ _
    · exact kind ▸ Report.replied_last _ r okAnswer

end Sys2Proof.Machine
end

section
/-! SUPPORT. The checks of a request against its ranges, and the four table loads (R22, R24, R25, R29, R33, R167). -/

namespace Sys2Proof.Machine

/-! ### The first failing check -/

theorem not_firstOut_nil (ordinal : Nat) : ¬ firstOut [] ordinal := by
  rintro ⟨before, check, after, is, -⟩
  exact List.append_ne_nil_of_right_ne_nil before (List.cons_ne_nil _ after) is.symm

theorem firstOut_cons {n ordinal : Nat} {p : Prop} {rest : List (Nat × Prop)} (h : firstOut ((n, p) :: rest) ordinal) :
    ¬p ∧ n = ordinal ∨ p ∧ firstOut rest ordinal := by
  obtain ⟨before, check, after, is, fails, passed⟩ := h
  cases before with
  | nil =>
    cases is
    exact .inl ⟨fails, rfl⟩
  | cons first more =>
    cases is
    exact .inr ⟨passed _ List.mem_cons_self, more, check, after, rfl, fails,
      fun c mem => passed c (List.mem_cons_of_mem _ mem)⟩

/-- The checks come to the first range that does not hold, and pass where all do. -/
def Checked (checks : List (Nat × Bool)) (ranges : List (Nat × Prop)) : Prop :=
  (∀ ordinal, firstOut ranges ordinal → firstFailure checks = some ordinal) ∧
    (allIn ranges → firstFailure checks = none)

theorem Checked.nil : Checked [] [] :=
  ⟨fun ordinal h => absurd h (not_firstOut_nil ordinal), fun _ => rfl⟩

theorem Checked.cons {checks : List (Nat × Bool)} {ranges : List (Nat × Prop)} {n : Nat} {ok : Bool} {p : Prop}
    (h : ok = true ↔ p) (later : Checked checks ranges) : Checked ((n, ok) :: checks) ((n, p) :: ranges) := by
  obtain ⟨fails, passes⟩ := later
  refine ⟨fun ordinal out => ?_, fun all => ?_⟩
  · rcases firstOut_cons out with ⟨not, rfl⟩ | ⟨holds, out⟩
    · exact if_neg (mt h.mp not)
    · exact (if_pos (h.mpr holds)).trans (fails ordinal out)
  · exact (if_pos (h.mpr (all _ List.mem_cons_self))).trans (passes fun c mem => all c (List.mem_cons_of_mem _ mem))

/-- A check that cannot fail has no range. -/
theorem Checked.skip {checks : List (Nat × Bool)} {ranges : List (Nat × Prop)} {n : Nat}
    (later : Checked checks ranges) : Checked ((n, true) :: checks) ranges := later

theorem firstFailure_append (a b : List (Nat × Bool)) :
    firstFailure (a ++ b) = (firstFailure a).or (firstFailure b) := by
  induction a with
  | nil => rfl
  | cons c rest ih =>
    obtain ⟨ordinal, ok⟩ := c
    cases ok with
    | false => rfl
    | true => exact ih

theorem firstOut_append {a b : List (Nat × Prop)} {ordinal : Nat} (h : firstOut (a ++ b) ordinal) :
    firstOut a ordinal ∨ allIn a ∧ firstOut b ordinal := by
  obtain ⟨before, check, after, is, fails, passed⟩ := h
  rcases List.append_eq_append_iff.mp is with ⟨more, first, rest⟩ | ⟨more, first, rest⟩
  · rw [first] at passed
    exact .inr ⟨fun c mem => passed c (List.mem_append_left _ mem),
      more, check, after, rest, fails, fun c mem => passed c (List.mem_append_right _ mem)⟩
  · cases more with
    | nil =>
      rw [List.append_nil] at first
      exact .inr ⟨first ▸ passed, [], check, after, rest.symm, fails, nofun⟩
    | cons failing later =>
      cases rest
      exact .inl ⟨before, check, later, first, fails, passed⟩

theorem Checked.append {a b : List (Nat × Bool)} {p q : List (Nat × Prop)} (first : Checked a p)
    (later : Checked b q) : Checked (a ++ b) (p ++ q) := by
  obtain ⟨firstFails, firstPasses⟩ := first
  obtain ⟨laterFails, laterPasses⟩ := later
  refine ⟨fun ordinal h => ?_, fun h => ?_⟩
  · rcases firstOut_append h with h | ⟨passed, h⟩
    · rw [firstFailure_append, firstFails ordinal h, Option.some_or]
    · rw [firstFailure_append, firstPasses passed, laterFails ordinal h, Option.none_or]
  · obtain ⟨h, k⟩ := List.forall_mem_append.mp h
    rw [firstFailure_append, firstPasses h, laterPasses k, Option.none_or]

theorem Checked.flatMap {l : List Nat} {checks : Nat → List (Nat × Bool)} {ranges : Nat → List (Nat × Prop)}
    (each : ∀ p, Checked (checks p) (ranges p)) : Checked (l.flatMap checks) (l.flatMap ranges) := by
  induction l with
  | nil => exact .nil
  | cons p rest ih =>
    rw [List.flatMap_cons, List.flatMap_cons]
    exact (each p).append ih

theorem decide_and_decide {p q : Prop} [Decidable p] [Decidable q] : (decide p && decide q) = true ↔ p ∧ q := by
  rw [Bool.and_eq_true, decide_eq_true_iff, decide_eq_true_iff]

/-- R22: each check of a LOAD_ARTICULATION is its range. -/
theorem articulationChecks_checked (b : List Byte) : Checked (articulationChecks b) (articulationRanges b) :=
  .cons decide_eq_true_iff <| .cons decide_eq_true_iff <|
    .cons decide_and_decide <| .cons decide_and_decide <| .cons decide_and_decide .nil

theorem zoneChecks_checked (b : List Byte) (p : Nat) : Checked (zoneChecks (zonesRecord b p) p)
    (let at0 := 4 + 13 * p
     [(2 + 9 * p + 1, field b at0 1 ≤ 127),
      (2 + 9 * p + 2, field b (at0 + 1) 1 ≤ 127 ∧ field b at0 1 ≤ field b (at0 + 1) 1),
      (2 + 9 * p + 3, field b (at0 + 2) 1 ≤ 127),
      (2 + 9 * p + 4, field b (at0 + 3) 1 ≤ 127 ∧ field b (at0 + 2) 1 ≤ field b (at0 + 3) 1),
      (2 + 9 * p + 5, field b (at0 + 4) 1 ≤ 15),
      (2 + 9 * p + 6, field b (at0 + 5) 4 ≤ 131071),
      (2 + 9 * p + 7, field b (at0 + 9) 1 ≤ 15),
      (2 + 9 * p + 8, field b (at0 + 10) 1 ≤ 255)]) :=
  .cons decide_eq_true_iff <| .cons decide_and_decide <| .cons decide_eq_true_iff <|
    .cons decide_and_decide <| .cons decide_eq_true_iff <|
    .cons (decide_eq_true_iff.trans Nat.lt_succ_iff) <| .cons decide_eq_true_iff <|
    .cons decide_eq_true_iff <| .skip .nil

theorem decide_and_decide_and_decide {p q t : Prop} [Decidable p] [Decidable q] [Decidable t] :
    (decide p && decide q && decide t) = true ↔ p ∧ q ∧ t := by
  rw [Bool.and_eq_true, decide_and_decide, decide_eq_true_iff, and_assoc]

/-- R24: each check of a LOAD_ZONES that can fail is its range. -/
theorem zonesChecks_checked (b : List Byte) : Checked (zonesChecks b) (zonesRanges b) :=
  .append (.cons decide_eq_true_iff <| .cons decide_and_decide_and_decide .nil)
    (.flatMap (zoneChecks_checked b))

/-- R28, R29: the points of a curve rise. -/
theorem curveRises_iff (b : List Byte) : curveRises (curveOf b) = true ↔ pointsRise b := by
  simp only [curveRises, Bool.and_eq_true, beq_iff_eq, decide_eq_true_eq]
  refine ⟨fun ⟨⟨⟨⟨⟨⟨first, last⟩, r1⟩, r2⟩, r3⟩, r4⟩, r5⟩ => ⟨first, r1, r2, r3, r4, r5, last⟩,
    fun ⟨first, r1, r2, r3, r4, r5, last⟩ => ⟨⟨⟨⟨⟨⟨first, last⟩, r1⟩, r2⟩, r3⟩, r4⟩, r5⟩⟩

/-! ### The tables that are written -/

/-- The tables written by a request, and the REPLY OK. -/
theorem State.Takes.setLibrary_reply {s : State} {r : Request} {rest : List Request} (h : s.Takes r rest)
    (x : Library) (a : Answer) :
    ((s.beginRequest r).setLibrary x).reply r a = { s.answered r rest a with library := x } := by
  obtain ⟨head, idle, -⟩ := h
  rcases s with ⟨port, report, _, _, _, _, _, _, _, _, _, _, _, _⟩
  simp only at head idle
  simp [State.beginRequest, State.reply, State.answered, head, idle, State.setPort, State.setReport, State.setLibrary]

/-- R25: the records of a run, written one behind another. -/
def zonesWritten (b : List Byte) (n : Nat) (t : Table Zone) : Table Zone :=
  (List.range n).foldl (fun t p => Table.put t (zonesFirst b + p) Zone.initial (zonesRecord b p)) t

theorem zonesWritten_succ (b : List Byte) (n : Nat) (t : Table Zone) : zonesWritten b (n + 1) t =
    Table.put (zonesWritten b n t) (zonesFirst b + n) Zone.initial (zonesRecord b n) := by
  rw [zonesWritten, List.range_succ, List.foldl_append, List.foldl_cons, List.foldl_nil]
  rfl

theorem zonesWritten_getD (b : List Byte) (n : Nat) (t : Table Zone) (i : Nat) :
    Table.getD (zonesWritten b n t) i Zone.initial =
      if zonesFirst b ≤ i ∧ i < zonesFirst b + n then zonesRecord b (i - zonesFirst b)
      else Table.getD t i Zone.initial := by
  induction n with
  | zero => exact (if_neg (by omega)).symm
  | succ n ih =>
    rw [zonesWritten_succ, Table.getD_put, ih]
    by_cases last : i = zonesFirst b + n
    · rw [if_pos last, if_pos (by omega), last, Nat.add_sub_cancel_left]
    · rw [if_neg last]
      exact if_congr (by omega) rfl rfl

theorem State.putZones_eq (s : State) (b : List Byte) :
    s.putZones b = s.setLibrary { s.library with zones := zonesWritten b (zonesCount b) s.library.zones } := by
  have each (n : Nat) : (List.range n).foldl (fun s p => s.putZone (zonesFirst b + p) (zonesRecord b p)) s =
      s.setLibrary { s.library with zones := zonesWritten b n s.library.zones } := by
    induction n with
    | zero => rfl
    | succ n ih =>
      rw [List.range_succ, List.foldl_append, List.foldl_cons, List.foldl_nil, ih,
        zonesWritten_succ]
      rfl
  exact each _

/-- R33: a coefficient is the signed value of its two bytes. -/
theorem signed_field (b : List Byte) (i : Nat) : signed 16 (field b i 2) = (BitVec.ofNat 16 (field b i 2)).toInt := by
  have small : field b i 2 < 65536 := field_lt b i 2
  rw [signed, BitVec.toInt_eq_toNat_cond, BitVec.toNat_ofNat, Nat.mod_eq_of_lt small]
  exact if_congr (by omega) rfl rfl

/-- Settles O56: each load by its checks, then by the records that it writes. -/
theorem tableLoads : Obligations.TableLoads := by
  intro s r rest takes mark
  refine ⟨fun kind => ?_, fun kind => ?_, fun kind => ?_, fun kind => ?_⟩
  · have served : exec .loadArticulation s = .next ((s.beginRequest r).loadArticulation r) :=
      (exec_loadArticulation s).trans (takes.serve _ (isRequest_self kind mark))
    obtain ⟨fails, passes⟩ := articulationChecks_checked r.body
    refine ⟨fun ordinal out => ?_, fun all => ⟨Table.put s.library.articulations (artIndex r.body)
      Articulation.initial (loadedArticulation r.body), ?_, fun i => ?_⟩⟩
    · rw [served, State.loadArticulation, fails ordinal out, ← takes.beginRequest_reply]
      rfl
    · rw [served, State.loadArticulation, passes all]
      exact congrArg Host.Outcome.next (takes.setLibrary_reply _ _)
    · exact Table.getD_put _ _ _ _ _
  · have served : exec .loadZones s = .next ((s.beginRequest r).loadZones r) :=
      (exec_loadZones s).trans (takes.serve _ (isRequest_self kind mark))
    obtain ⟨fails, passes⟩ := zonesChecks_checked r.body
    refine ⟨fun ordinal out => ?_, fun all => ⟨zonesWritten r.body (zonesCount r.body) s.library.zones,
      ?_, fun i => ?_⟩⟩
    · rw [served, State.loadZones, fails ordinal out, ← takes.beginRequest_reply]
      rfl
    · rw [served, State.loadZones, passes all, State.putZones_eq]
      exact congrArg Host.Outcome.next (takes.setLibrary_reply _ _)
    · exact zonesWritten_getD _ _ _ _
  · have served : exec .loadCurve s = .next ((s.beginRequest r).loadCurve r) :=
      (exec_loadCurve s).trans (takes.serve _ (isRequest_self kind mark))
    have notBeyond (within : field r.body 0 1 ≤ 15) : ¬ 15 < curveIndex r.body := Nat.not_lt.mpr within
    refine ⟨fun beyond => ?_, fun within => ⟨fun out => ?_, fun rises => ⟨Table.put s.library.curves
      (curveIndex r.body) Curve.initial (curveOf r.body), ?_, fun i => ?_⟩⟩⟩
    · rw [served, State.loadCurve, if_pos (show 15 < curveIndex r.body from beyond), ← takes.beginRequest_reply]
      rfl
    · rw [served, State.loadCurve, if_neg (notBeyond within), if_neg (mt (curveRises_iff _).mp out),
        ← takes.beginRequest_reply]
      rfl
    · rw [served, State.loadCurve, if_neg (notBeyond within), if_pos ((curveRises_iff _).mpr rises)]
      exact congrArg Host.Outcome.next (takes.setLibrary_reply _ _)
    · exact Table.getD_put _ _ _ _ _
  · have served : exec .loadMatrix s = .next ((s.beginRequest r).loadMatrix r) :=
      (exec_loadMatrix s).trans (takes.serve _ (isRequest_self kind mark))
    refine ⟨fun beyond => ?_, fun within => ⟨Table.put s.library.matrices (matrixIndex r.body) FoldMatrix.initial
      { s.matrix (matrixIndex r.body) with staged := matrixFold r.body, pending := true }, ?_, fun i => ?_⟩⟩
    · rw [served, State.loadMatrix]
      exact (congrArg Host.Outcome.next ((if_pos beyond).trans (takes.beginRequest_reply _)))
    · rw [served, State.loadMatrix]
      exact (congrArg Host.Outcome.next ((if_neg (Nat.not_lt.mpr within)).trans (takes.setLibrary_reply _ _)))
    · rw [Table.getD_put, matrixFold]
      simp only [signed_field]
      rcases eq_or_ne i (matrixIndex r.body) with rfl | other
      · exact (if_pos rfl).trans (if_pos rfl).symm
      · exact (if_neg other).trans (if_neg other).symm

end Sys2Proof.Machine
end

section
/-! SUPPORT. The event requests (R182 to R185): their bodies, the records that their entries leave, and the one NOTICE. -/

namespace Sys2Proof.Machine

/-! ### The entries of a body -/

theorem eventCode_lt (k : EventKind) : eventCode k < 256 := by cases k <;> decide

theorem eventCode_toNat (k : EventKind) : (BitVec.ofNat 8 (eventCode k)).toNat = k.code := by
  rw [BitVec.toNat_ofNat, Nat.mod_eq_of_lt (eventCode_lt k), eventCode_eq]

theorem EventKind.ofCode_code (k : EventKind) : EventKind.ofCode k.code = some k := by cases k <;> rfl

theorem EventKind.code_range (k : EventKind) : 1 ≤ k.code ∧ k.code ≤ 20 := by cases k <;> decide

theorem field_drop_one (b : Byte) (rest : List Byte) (i n : Nat) : field (b :: rest) (i + 1) n = field rest i n := rfl

/-- R182: byte `p` of a list of codes is the code of entry `p`. -/
theorem field_codes (kinds : List EventKind) (p : Nat) (k : EventKind) (is : kinds[p]? = some k) :
    field (kinds.map fun k => BitVec.ofNat 8 (eventCode k)) p 1 = k.code := by
  induction kinds generalizing p with
  | nil => cases is
  | cons first rest ih =>
    rw [List.map_cons]
    cases p with
    | zero =>
      cases is
      rw [field_first, eventCode_toNat]
    | succ p => exact ih p is

/-- The body of an EVENT_MASK (8.10). -/
def maskBody (entries : List (EventKind × Bool)) : List Byte :=
  entries.flatMap fun e => [BitVec.ofNat 8 (eventCode e.1), if e.2 then 1 else 0]

theorem maskBody_length (entries : List (EventKind × Bool)) : (maskBody entries).length = 2 * entries.length := by
  induction entries with
  | nil => rfl
  | cons e rest ih =>
    show (maskBody rest).length + 2 = _
    rw [ih, List.length_cons, Nat.mul_succ]

/-- R182: bytes `2p` and `2p + 1` are the code and the mask value of entry `p`. -/
theorem field_maskBody (entries : List (EventKind × Bool)) (p : Nat) (e : EventKind × Bool)
    (is : entries[p]? = some e) :
    field (maskBody entries) (2 * p) 1 = e.1.code ∧ field (maskBody entries) (2 * p + 1) 1 = if e.2 then 1 else 0 := by
  induction entries generalizing p with
  | nil => cases is
  | cons first rest ih =>
    show field (_ :: _ :: maskBody rest) _ _ = _ ∧ field (_ :: _ :: maskBody rest) _ _ = _
    cases p with
    | zero =>
      cases is
      obtain ⟨k, mask⟩ := e
      rw [field_first, field_second, eventCode_toNat]
      cases mask <;> exact ⟨rfl, rfl⟩
    | succ p => exact ih p is

/-- A fold over the places of a list that reads each entry there is the fold over the list. -/
theorem foldl_range_places {α β : Type} (l : List α) (f : β → Nat → β) (g : β → α → β)
    (h : ∀ p a, l[p]? = some a → ∀ w, f w p = g w a) (w : β) :
    (List.range l.length).foldl f w = l.foldl g w := by
  induction l using List.reverseRecOn with
  | nil => rfl
  | append_singleton l a ih =>
    have before (p : Nat) (b : α) (is : l[p]? = some b) : (l ++ [a])[p]? = some b :=
      (List.getElem?_append_left (List.getElem?_eq_some_iff.mp is).1).trans is
    rw [List.length_append, List.length_singleton, List.range_succ, List.foldl_append, List.foldl_append,
      ih fun p b is => h p b (before p b is)]
    exact h _ a List.getElem?_concat_length _

/-! ### The records that the entries leave -/

/-- The record of a kind as entries in list order leave it: each changes the record of its own kind. -/
def recordAfter {α : Type} (kind : α → EventKind) (change : α → EventRecord → EventRecord) (k : EventKind)
    (x : EventRecord) (entries : List α) : EventRecord :=
  entries.foldl (fun x e => if kind e = k then change e x else x) x

/-- One entry of an event request: the record of its kind is changed, and a NOTICE wanted where it enters the set. -/
def EventWork.entry (w : EventWork) (k : EventKind) (change : EventRecord → EventRecord)
    (enters : EventRecord → Bool) : EventWork :=
  { report := w.report.putEvent k (change (w.report.event k)), wanted := w.wanted || enters (w.report.event k) }

/-- The entries of an event request in list order. -/
def EventWork.entries {α : Type} (kind : α → EventKind) (change : α → EventRecord → EventRecord)
    (enters : α → EventRecord → Bool) (w : EventWork) (l : List α) : EventWork :=
  l.foldl (fun w e => w.entry (kind e) (change e) (enters e)) w

section
variable {α : Type} (kind : α → EventKind) (change : α → EventRecord → EventRecord) (enters : α → EventRecord → Bool)

theorem EventWork.entries_event (w : EventWork) (l : List α) (k : EventKind) :
    (w.entries kind change enters l).report.event k = recordAfter kind change k (w.report.event k) l := by
  induction l generalizing w with
  | nil => rfl
  | cons e rest ih =>
    have first : (w.entry (kind e) (change e) (enters e)).report.event k =
        if kind e = k then change e (w.report.event k) else w.report.event k := by
      rw [EventWork.entry, Report.event_putEvent]
      by_cases same : kind e = k
      · rw [if_pos same, if_pos same.symm, same]
      · rw [if_neg same, if_neg (Ne.symm same)]
    exact (ih _).trans (congrArg (fun x => recordAfter kind change k x rest) first)

/-- The entries change nothing of the reports but the events. -/
theorem EventWork.entries_rest (w : EventWork) (l : List α) :
    (w.entries kind change enters l).report =
      { w.report with events := (w.entries kind change enters l).report.events } := by
  induction l generalizing w with
  | nil => rfl
  | cons e rest ih => exact ih _

/-- A NOTICE is wanted when an entry brings its event, as the entries before it left it, into the set. -/
theorem EventWork.entries_wanted (w : EventWork) (l : List α) :
    (w.entries kind change enters l).wanted = true ↔ w.wanted = true ∨ ∃ first e later, l = first ++ e :: later ∧
      enters e (recordAfter kind change (kind e) (w.report.event (kind e)) first) = true := by
  induction l using List.reverseRecOn with
  | nil =>
    refine ⟨.inl, fun h => h.resolve_right ?_⟩
    rintro ⟨first, e, later, is, -⟩
    exact List.append_ne_nil_of_right_ne_nil first (List.cons_ne_nil e later) is.symm
  | append_singleton l e ih =>
    have last : (w.entries kind change enters (l ++ [e])).wanted =
        ((w.entries kind change enters l).wanted ||
          enters e (recordAfter kind change (kind e) (w.report.event (kind e)) l)) := by
      rw [← EventWork.entries_event kind change enters, EventWork.entries, List.foldl_append]
      rfl
    rw [last, Bool.or_eq_true, ih, or_assoc]
    refine or_congr Iff.rfl ⟨?_, ?_⟩
    · rintro (⟨first, a, later, rfl, holds⟩ | holds)
      · exact ⟨first, a, later ++ [e], by rw [List.append_assoc, List.cons_append], holds⟩
      · exact ⟨l, e, [], rfl, holds⟩
    · rintro ⟨first, a, later, is, holds⟩
      rcases List.eq_nil_or_concat later with rfl | ⟨more, b, rfl⟩
      · obtain ⟨rfl, same⟩ := List.append_inj' is rfl
        cases same
        exact .inr holds
      · rw [List.concat_eq_append, ← List.cons_append, ← List.append_assoc] at is
        obtain ⟨rfl, -⟩ := List.append_inj' is rfl
        exact .inl ⟨first, a, more, rfl, holds⟩

end

/-! ### The works of the three requests -/

theorem maskWork_eq (entries : List (EventKind × Bool)) (r : Report) :
    maskWork (maskBody entries) r = EventWork.entries Prod.fst (fun e x => x.setMask e.2)
      (fun e x => x.entersOnMask e.2) { report := r, wanted := false } entries := by
  have places : maskEntries (maskBody entries) = entries.length := by
    rw [maskEntries, maskBody_length, Nat.mul_div_cancel_left _ (by decide)]
  rw [maskWork, places]
  refine foldl_range_places entries _ _ (fun p e is w => ?_) _
  obtain ⟨code, mask⟩ := field_maskBody entries p e is
  rw [eventAt, code, EventKind.ofCode_code, mask]
  obtain ⟨k, m⟩ := e
  cases m <;> rfl

theorem clearWork_eq (kinds : List EventKind) (r : Report) :
    clearWork (kinds.map fun k => BitVec.ofNat 8 (eventCode k)) r =
      EventWork.entries id (fun _ x => x.clear) (fun _ _ => false) { report := r, wanted := false } kinds := by
  rw [clearWork, List.length_map]
  refine foldl_range_places kinds _ _ (fun p k is w => ?_) _
  rw [eventAt, field_codes kinds p k is, EventKind.ofCode_code]
  exact congrArg (EventWork.mk _) (Bool.or_false _).symm

theorem setWork_eq (kinds : List EventKind) (r : Report) :
    setWork (kinds.map fun k => BitVec.ofNat 8 (eventCode k)) r =
      EventWork.entries id (fun _ x => x.occur none) (fun _ x => x.entersOnOccur)
        { report := r, wanted := false } kinds := by
  rw [setWork, List.length_map]
  refine foldl_range_places kinds _ _ (fun p k is w => ?_) _
  rw [eventAt, field_codes kinds p k is, EventKind.ofCode_code]
  rfl

/-! ### The checks (R182) -/

theorem maskChecks_checked (b : List Byte) : Checked (maskChecks b) (maskRanges b) := by
  refine Checked.flatMap fun p => .cons decide_and_decide <| .cons (decide_eq_true_iff.trans ?_) .nil
  rw [List.mem_cons, List.mem_singleton]
  omega

theorem codeChecks_checked (b : List Byte) : Checked (codeChecks b) (codeRanges b) := by
  rw [codeChecks, codeRanges, List.map_eq_flatMap, List.map_eq_flatMap]
  exact Checked.flatMap fun p => .cons decide_and_decide .nil

theorem allIn_maskRanges (entries : List (EventKind × Bool)) : allIn (maskRanges (maskBody entries)) := by
  intro c mem
  rw [maskRanges, maskBody_length, Nat.mul_div_cancel_left _ (by decide), List.mem_flatMap] at mem
  obtain ⟨p, inside, mem⟩ := mem
  have is := List.getElem?_eq_getElem (List.mem_range.mp inside)
  obtain ⟨code, mask⟩ := field_maskBody entries p _ is
  rw [List.mem_cons, List.mem_singleton] at mem
  rcases mem with rfl | rfl
  · rw [code]
    exact EventKind.code_range _
  · show field _ _ _ ∈ [0, 1]
    rw [mask]
    split <;> decide

theorem allIn_codeRanges (kinds : List EventKind) :
    allIn (codeRanges (kinds.map fun k => BitVec.ofNat 8 (eventCode k))) := by
  intro c mem
  rw [codeRanges, List.length_map, List.mem_map] at mem
  obtain ⟨p, inside, rfl⟩ := mem
  have is := List.getElem?_eq_getElem (List.mem_range.mp inside)
  rw [field_codes kinds p _ is]
  exact EventKind.code_range _

/-! ### The NOTICE and the reply (R180, R182; log 32) -/

theorem EventWork.finish_unwanted {w : EventWork} (h : w.wanted = false ∨ w.report.noticeEntries = []) :
    w.finish = w.report := by
  refine if_neg ?_
  rcases h with h | h <;> rw [h]
  · exact Bool.false_ne_true
  · rw [List.isEmpty_nil, Bool.not_true, Bool.and_false]
    exact Bool.false_ne_true

theorem EventWork.finish_wanted {w : EventWork} (wanted : w.wanted = true) (some : w.report.noticeEntries ≠ []) :
    w.finish = w.report.wantNotice := by
  refine if_pos ?_
  rw [wanted, Bool.true_and, Bool.not_eq_true', List.isEmpty_eq_false_iff]
  exact some

theorem EventWork.finish_events (w : EventWork) : w.finish.events = w.report.events := by
  unfold EventWork.finish
  split
  · exact w.report.wantNotice_events
  · rfl

theorem EventWork.finish_endList (w : EventWork) : w.finish.endList = w.report.endList := by
  unfold EventWork.finish
  split
  · exact w.report.wantNotice_endList
  · rfl

/-- R180, R182: the one NOTICE that the entries want takes a place beside the reserved one, or is held. -/
theorem EventWork.finish_notices {w : EventWork} {r : Request} (unheld : w.report.noticeHeld = false)
    (busy : w.report.busy = some r) :
    ∃ notices : List ControlFrame, w.finish.control = w.report.control ++ notices ∧
      (w.wanted = true → w.report.noticeEntries ≠ [] →
        if w.report.control.length < 15 then
          notices = [.notice w.report.noticeEntries] ∧ w.finish.noticeHeld = false
        else notices = [] ∧ w.finish.noticeHeld = true) ∧
      (w.wanted = false ∨ w.report.noticeEntries = [] → notices = [] ∧ w.finish.noticeHeld = false) := by
  by_cases one : w.wanted = true ∧ w.report.noticeEntries ≠ []
  · obtain ⟨want, some⟩ := one
    have not : ¬ (w.wanted = false ∨ w.report.noticeEntries = []) := by
      rw [want]
      exact not_or.mpr ⟨nofun, some⟩
    have room : (w.report.control.length + if w.report.busy = none then 0 else 1) < 16 ↔
        w.report.control.length < 15 := by
      rw [busy, if_neg (Option.some_ne_none r)]
      omega
    rw [EventWork.finish_wanted want some, Report.wantNotice_eq, if_neg (by rw [unheld]; nofun)]
    by_cases short : w.report.control.length < 15
    · rw [if_pos (room.mpr short)]
      exact ⟨_, rfl, fun _ _ => (if_pos short).symm ▸ ⟨rfl, unheld⟩, fun none => absurd none not⟩
    · rw [if_neg (mt room.mp short)]
      exact ⟨[], (List.append_nil _).symm, fun _ _ => (if_neg short).symm ▸ ⟨rfl, rfl⟩, fun none => absurd none not⟩
  · have unwanted : w.wanted = false ∨ w.report.noticeEntries = [] := by
      rw [not_and_or, not_not, Bool.not_eq_true] at one
      exact one
    rw [EventWork.finish_unwanted unwanted]
    exact ⟨[], (List.append_nil _).symm, fun want some => absurd ⟨want, some⟩ one, fun _ => ⟨rfl, unheld⟩⟩

/-- R182: an accepted event request by the records that its entries leave, the one NOTICE it wants and its reply. -/
theorem State.Takes.eventRequest_done {s : State} {r : Request} {rest : List Request} (takes : s.Takes r rest)
    {c : Instr} {checks : List (Nat × Bool)} {w : EventWork}
    (served : exec c s = .next ((s.beginRequest r).eventRequest r checks w)) (passed : firstFailure checks = none)
    (kept : w.report = { s.report with busy := some r, events := w.report.events })
    {record : EventKind → EventRecord} (records : ∀ k, w.report.event k = record k) {wanted : Prop}
    (wants : w.wanted = true ↔ wanted) :
    ∃ (q : Report) (notices : List ControlFrame),
      exec c s = .next { s with port := { s.port with mgmtQueue := rest }, report := q } ∧
      (∀ k, q.event k = record k) ∧ q.endList = s.report.endList ∧ q.busy = none ∧ q.reading = s.report.reading ∧
      q.control = s.report.control ++ notices ++ [.reply r.source r.number r.kind ⟨.ok, 0, 0, []⟩] ∧
      (wanted → q.noticeEntries ≠ [] →
        if s.report.control.length < 15 then notices = [.notice q.noticeEntries] ∧ q.noticeHeld = false
        else notices = [] ∧ q.noticeHeld = true) ∧
      (¬wanted ∨ q.noticeEntries = [] → notices = [] ∧ q.noticeHeld = false) := by
  obtain ⟨-, -, unheld, -⟩ := id takes
  have unheld : w.report.noticeHeld = false := by rw [kept]; exact unheld
  have busy : w.report.busy = some r := by rw [kept]
  have control : w.report.control = s.report.control := by rw [kept]
  have endList : w.report.endList = s.report.endList := by rw [kept]
  have reading : w.report.reading = s.report.reading := by rw [kept]
  obtain ⟨notices, queue, told, untold⟩ := EventWork.finish_notices unheld busy
  have entries : (w.finish.replied r okAnswer).noticeEntries = w.report.noticeEntries :=
    Report.noticeEntries_congr w.finish_events
  refine ⟨w.finish.replied r okAnswer, notices, ?_, fun k => (w.finish_event k).trans (records k),
    w.finish_endList.trans endList, rfl, w.finish_reading.trans reading, ?_, ?_, ?_⟩
  · rw [served, State.eventRequest, passed, takes.beginRequest]
    rfl
  · rw [← control, ← queue]
    rfl
  · rw [entries, ← control]
    exact fun want => told (wants.mpr want)
  · rw [entries]
    exact fun none => untold (none.imp_left fun not => Bool.eq_false_iff.mpr (mt wants.mp not))

/-! ### The records by kind -/

/-- R184: clearing is done once and for all. -/
theorem recordAfter_clear (kinds : List EventKind) (k : EventKind) (x : EventRecord) :
    recordAfter id (fun _ x => x.clear) k x kinds =
      if k ∈ kinds then { x with raw := false, pending := false, count := 0, capture := none } else x := by
  induction kinds generalizing x with
  | nil => rfl
  | cons j rest ih =>
    have cleared (y : EventRecord) : y.clear = { y with raw := false, pending := false, count := 0, capture := none } :=
      rfl
    show recordAfter id _ k (if j = k then x.clear else x) rest = _
    rw [ih]
    by_cases same : j = k
    · rw [if_pos same, if_pos (same ▸ List.mem_cons_self : k ∈ j :: rest), cleared]
      split <;> rfl
    · rw [if_neg same]
      exact if_congr (by rw [List.mem_cons, or_iff_right (Ne.symm same)]) rfl rfl

theorem recordAfter_other {α : Type} {kind : α → EventKind} {change : α → EventRecord → EventRecord} {k : EventKind}
    (x : EventRecord) {entries : List α} (other : ∀ e ∈ entries, kind e ≠ k) :
    recordAfter kind change k x entries = x := by
  induction entries with
  | nil => rfl
  | cons e rest ih =>
    show recordAfter kind change k (if kind e = k then change e x else x) rest = x
    rw [if_neg (other e List.mem_cons_self), ih fun a mem => other a (List.mem_cons_of_mem _ mem)]

/-- R178: the mask is not changed, and the raw flag stays. -/
theorem recordAfter_occur (kinds : List EventKind) (k : EventKind) (x : EventRecord) :
    (recordAfter id (fun _ x => x.occur none) k x kinds).masked = x.masked ∧
      (x.raw = true → (recordAfter id (fun _ x => x.occur none) k x kinds).raw = true) := by
  induction kinds generalizing x with
  | nil => exact ⟨rfl, id⟩
  | cons j rest ih =>
    show (recordAfter id _ k (if j = k then x.occur none else x) rest).masked = _ ∧
      (_ → (recordAfter id _ k (if j = k then x.occur none else x) rest).raw = true)
    split
    · obtain ⟨mask, raw⟩ := ih (x.occur none)
      exact ⟨mask, fun _ => raw rfl⟩
    · exact ih x

/-- R178, R185: an EVENT_SET wants a NOTICE when one of its events was neither raised nor masked. -/
theorem set_wants_iff (kinds : List EventKind) (record : EventKind → EventRecord) :
    (∃ first k later, kinds = first ++ k :: later ∧
      (recordAfter id (fun _ x => x.occur none) k (record k) first).entersOnOccur = true) ↔
      ∃ k ∈ kinds, (record k).raw = false ∧ (record k).masked = false := by
  simp only [EventRecord.entersOnOccur, Bool.and_eq_true, Bool.not_eq_true']
  constructor
  · rintro ⟨first, k, later, rfl, raw, masked⟩
    obtain ⟨mask, raised⟩ := recordAfter_occur first k (record k)
    exact ⟨k, List.mem_append_right _ List.mem_cons_self,
      Bool.eq_false_iff.mpr fun was => Bool.false_ne_true (raw.symm.trans (raised was)), mask.symm.trans masked⟩
  · rintro ⟨k, mem, raw, masked⟩
    obtain ⟨first, later, rfl, notBefore⟩ := List.eq_append_cons_of_mem mem
    refine ⟨first, k, later, rfl, ?_⟩
    rw [recordAfter_other (kind := id) (record k) fun e mem same => notBefore ((show e = k from same) ▸ mem)]
    exact ⟨raw, masked⟩

/-- Settles O58: the checks, then the records that the entries leave, the one NOTICE and the reply. -/
theorem eventRequests : Obligations.EventRequests := by
  intro s r rest takes mark
  have refused {c : Instr} {checks : List (Nat × Bool)} {w : EventWork} {ordinal : Nat}
      (served : exec c s = .next ((s.beginRequest r).eventRequest r checks w))
      (failed : firstFailure checks = some ordinal) :
      exec c s = .next (s.answered r rest ⟨.badField, ordinal, 0, []⟩) := by
    rw [served, State.eventRequest, failed, ← takes.beginRequest_reply]
    rfl
  refine ⟨fun kind => ?_, fun kind => ?_, fun kind => ?_⟩
  · have served := (exec_eventMask s).trans (takes.serve _ (isRequest_self kind mark))
    obtain ⟨fails, passes⟩ := maskChecks_checked r.body
    refine ⟨fun ordinal out => refused served (fails ordinal out), fun entries body => ?_⟩
    have passed := passes (body ▸ allIn_maskRanges entries)
    have work : maskWork r.body (s.beginRequest r).report = _ := (congrArg (maskWork · _) body).trans (maskWork_eq entries _)
    rw [work] at served
    refine takes.eventRequest_done served passed (EventWork.entries_rest _ _ _ _ _)
      (fun k => EventWork.entries_event _ _ _ _ _ k) ((EventWork.entries_wanted _ _ _ _ _).trans ?_)
    rw [or_iff_right Bool.false_ne_true]
    constructor
    · rintro ⟨first, ⟨k, m⟩, later, is, enters⟩
      simp only [EventRecord.entersOnMask, Bool.and_eq_true, Bool.not_eq_true'] at enters
      obtain ⟨⟨raw, masked⟩, rfl⟩ := enters
      exact ⟨first, k, later, is, raw, masked⟩
    · rintro ⟨first, k, later, is, raw, masked⟩
      refine ⟨first, (k, false), later, is, ?_⟩
      simp only [EventRecord.entersOnMask, Bool.and_eq_true, Bool.not_eq_true']
      exact ⟨⟨raw, masked⟩, trivial⟩
  · have served := (exec_eventClear s).trans (takes.serve _ (isRequest_self kind mark))
    obtain ⟨fails, passes⟩ := codeChecks_checked r.body
    refine ⟨fun ordinal out => refused served (fails ordinal out), fun kinds body => ?_⟩
    have passed := passes (body ▸ allIn_codeRanges kinds)
    have work : clearWork r.body (s.beginRequest r).report = _ := (congrArg (clearWork · _) body).trans (clearWork_eq kinds _)
    rw [work] at served
    refine takes.eventRequest_done served passed (EventWork.entries_rest _ _ _ _ _)
      (fun k => (EventWork.entries_event _ _ _ _ _ k).trans (recordAfter_clear kinds k _))
      ((EventWork.entries_wanted _ _ _ _ _).trans ?_)
    simp
  · have served := (exec_eventSet s).trans (takes.serve _ (isRequest_self kind mark))
    obtain ⟨fails, passes⟩ := codeChecks_checked r.body
    refine ⟨fun ordinal out => refused served (fails ordinal out), fun kinds body => ?_⟩
    have passed := passes (body ▸ allIn_codeRanges kinds)
    have work : setWork r.body (s.beginRequest r).report = _ := (congrArg (setWork · _) body).trans (setWork_eq kinds _)
    rw [work] at served
    refine takes.eventRequest_done served passed (EventWork.entries_rest _ _ _ _ _)
      (fun k => EventWork.entries_event _ _ _ _ _ k) ((EventWork.entries_wanted _ _ _ _ _).trans ?_)
    rw [or_iff_right Bool.false_ne_true]
    exact set_wants_iff kinds s.report.event

end Sys2Proof.Machine
end

section
/-! SUPPORT. RETIRE_SAMPLE and LOAD_SAMPLE: the entry that each leaves, and the lane of a priming one (R3 to R7, R13, R16). -/

namespace Sys2Proof.Machine

/-! ### RETIRE_SAMPLE -/

/-- R16: what is left of an entry that is retired. -/
def retiredEntry (e : SampleEntry) : Option SampleEntry :=
  match e.state with
  | .ready => if e.refCount = 0 then none else some { e with state := .retiring }
  | .retiring => some e
  | .priming => none
  | .faulted => none

/-- R13, R7: the lane of a PRIMING entry that is retired: its reads are to be discarded, and it leaves the list. -/
def State.retiredLane (s : State) (l : LaneId) (h : Nat) : Lane :=
  { s.lane l with
    primingList := (s.lane l).primingList.filter (· ≠ h)
    segments := if (s.lane l).primingList.head? = some h then s.recordFor ((s.lane l).primingList.filter (· ≠ h))
                else (s.lane l).segments
    reads := (s.lane l).reads.map fun row => (row.1, discardRead h row.2) }

theorem State.retireEntry_priming {s : State} {h : Nat} {e : SampleEntry} (priming : e.state = .priming) :
    s.retireEntry h e = (s.setLane e.lane (s.retiredLane e.lane h)).clearEntry h := by
  have left : (s.discardReads e.lane h).leavePriming e.lane h = s.setLane e.lane (s.retiredLane e.lane h) := by
    rw [State.discardReads, State.leavePriming, State.lane_setLane_same]
    dsimp only
    rw [filter_other, State.setLane_setLane]
    rfl
  rw [State.retireEntry, priming, ← left]

theorem State.retiredLane_eq (s : State) (l : LaneId) (h : Nat) : s.retiredLane l h =
    { s.lane l with
      primingList := (s.lane l).primingList.filter (· ≠ h), segments := (s.retiredLane l h).segments
      reads := (s.lane l).reads.map fun row => (row.1, match row.2 with
        | .busy (.priming k i d) a m ms => .busy (.priming k i (d || k == h)) a m ms
        | other => other) } := by
  have discards : (fun row : Nat × ReadEntry => (row.1, discardRead h row.2)) = fun row => (row.1, match row.2 with
      | .busy (.priming k i d) a m ms => .busy (.priming k i (d || k == h)) a m ms
      | other => other) := funext fun row => congrArg _ (discardRead_eq h row.2)
  rw [← discards]
  rfl

/-- What retiring the entry `h` leaves. -/
structure State.Retires (s u : State) (h : Nat) (e : SampleEntry) : Prop where
  entry  : u.entry? h = retiredEntry e
  others : ∀ k, k ≠ h → u.entry? k = s.entry? k
  lane   : e.state = .priming → u.lane e.lane = s.retiredLane e.lane h
  lanes  : ∀ l, e.state ≠ .priming ∨ l ≠ e.lane → u.lane l = s.lane l
  only   : s.ChangesOnly u [.library, .lanes]

theorem State.retireEntry_retires {s : State} {h : Nat} {e : SampleEntry} (entry : s.entry? h = some e) :
    s.Retires (s.retireEntry h e) h e := by
  have only := (s.retireEntry_goes h e).only
  have cleared (t : State) : (t.clearEntry h).entry? h = none := by rw [State.clearEntry_entry?, if_pos rfl]
  have clearedOther (t : State) (k : Nat) (other : k ≠ h) : (t.clearEntry h).entry? k = t.entry? k := by
    rw [State.clearEntry_entry?, if_neg other]
  cases state : e.state with
  | priming =>
    rw [State.retireEntry_priming state] at only ⊢
    refine ⟨?_, fun k other => clearedOther _ k other, fun _ => s.lane_setLane_same _ _, fun l other => ?_, only⟩
    · rw [cleared, retiredEntry, state]
    · exact (s.lane_setLane e.lane l _).trans (if_neg (other.resolve_left (not_not.mpr state)))
  | ready =>
    have retired : s.retireEntry h e =
        if e.refCount = 0 then s.clearEntry h else s.putEntry h { e with state := .retiring } := by
      rw [State.retireEntry, state]
    rw [retired] at only ⊢
    by_cases unused : e.refCount = 0
    · rw [if_pos unused] at only ⊢
      refine ⟨?_, fun k other => clearedOther s k other, fun is => ?_, fun _ _ => rfl, only⟩
      · rw [cleared, retiredEntry, state]
        exact (if_pos unused).symm
      · rw [state] at is
        cases is
    · rw [if_neg unused] at only ⊢
      refine ⟨?_, fun k other => ?_, fun is => ?_, fun _ _ => rfl, only⟩
      · rw [State.putEntry_entry?, if_pos rfl, retiredEntry, state]
        exact (if_neg unused).symm
      · rw [State.putEntry_entry?, if_neg other]
      · rw [state] at is
        cases is
  | faulted =>
    have retired : s.retireEntry h e = s.clearEntry h := by rw [State.retireEntry, state]
    rw [retired] at only ⊢
    refine ⟨?_, fun k other => clearedOther s k other, fun is => ?_, fun _ _ => rfl, only⟩
    · rw [cleared, retiredEntry, state]
    · rw [state] at is
      cases is
  | retiring =>
    have retired : s.retireEntry h e = s := by rw [State.retireEntry, state]
    rw [retired] at only ⊢
    refine ⟨?_, fun _ _ => rfl, fun is => ?_, fun _ _ => rfl, only⟩
    · rw [entry, retiredEntry, state]
    · rw [state] at is
      cases is

theorem State.recordFor_left {s : State} {h : Nat} (list : List Nat) :
    NextSetUp s (list.filter (· ≠ h)) (s.recordFor (list.filter (· ≠ h))) :=
  State.recordFor_nextSetUp (fun _ _ => rfl) list

/-- Settles O55: the two refusals, then the entry, its lane and the reply by the state that the entry was in. -/
theorem retireSample : Obligations.RetireSample := by
  intro s r rest takes kind mark h ok
  have served : exec .retireSample s = .next ((s.beginRequest r).retireSample r) :=
    (exec_retireSample s).trans (takes.serve _ (isRequest_self kind mark))
  have within (small : h ≤ 131071) : ¬ handleCount ≤ handleOf r.body := Nat.not_le.mpr (Nat.lt_succ_iff.mpr small)
  refine ⟨fun beyond => ?_, fun small empty => ?_, fun small e entry => ?_⟩
  · rw [served, State.retireSample]
    exact congrArg Host.Outcome.next ((if_pos beyond).trans (takes.beginRequest_reply _))
  · rw [served, State.retireSample]
    dsimp only
    rw [if_neg (within small), show (s.beginRequest r).entry? (handleOf r.body) = none from empty]
    exact congrArg Host.Outcome.next (takes.beginRequest_reply _)
  · have retires := State.retireEntry_retires (s := s.beginRequest r) (h := h) (e := e) entry
    obtain ⟨head, idle, -⟩ := id takes
    have queue : (s.beginRequest r).port = { s.port with mgmtQueue := rest } := by
      rw [takes.beginRequest]
    have reports (code : Nat) (is : stateCodeOf (retiredEntry e) = code) :
        (((s.beginRequest r).retireEntry h e).reply r (okWith (toBE 1 (stateCodeOf
          (((s.beginRequest r).retireEntry h e).entry? h))))).report = ok code := by
      rw [retires.entry, is, State.reply_eq, State.setReport_report, retires.only.report (by decide), takes.beginRequest]
      show Report.mk _ _ _ _ _ _ = Report.mk _ _ _ _ _ _
      rw [idle]
      rfl
    refine ⟨((s.beginRequest r).retireEntry h e).reply r (okWith (toBE 1 (stateCodeOf
      (((s.beginRequest r).retireEntry h e).entry? h)))), ?_, fun state some => ?_, fun state => ?_, fun state => ?_,
      fun state => ?_, retires.lanes, retires.only.slots (by decide), retires.others,
      (retires.only.port (by decide)).trans queue, retires.only.voices (by decide), retires.only.cadence (by decide),
      retires.only.pass (by decide), retires.only.config (by decide), retires.only.headStore (by decide),
      retires.only.ringStore (by decide)⟩
    · rw [served, State.retireSample]
      dsimp only
      rw [if_neg (within small), show (s.beginRequest r).entry? (handleOf r.body) = Option.some e from entry]
      rfl
    · have left : retiredEntry e = Option.some { e with state := .retiring } := by
        rw [retiredEntry, state]
        exact if_neg (Nat.ne_of_gt some)
      exact ⟨retires.entry.trans left, reports 4 (by rw [left]; rfl)⟩
    · have left : retiredEntry e = Option.some e := by rw [retiredEntry, state]
      refine ⟨retires.entry.trans left, reports 4 ?_⟩
      rw [left, stateCodeOf, state]
      rfl
    · have left : retiredEntry e = none := by
        rw [retiredEntry]
        rcases state with state | state | ⟨state, unused⟩ <;> rw [state]
        exact if_pos unused
      exact ⟨retires.entry.trans left, reports 0 (by rw [left]; rfl)⟩
    · have lane := retires.lane state
      have segments := (congrArg Lane.segments lane).symm
      refine ⟨lane.trans ((State.retiredLane_eq _ _ _).trans (congrArg (fun g => Lane.mk _ _ _ _ _ _ _ g _) segments)),
        fun behind => segments.symm.trans (if_neg behind), fun first => ?_⟩
      exact (segments.symm.trans (if_pos first)) ▸ State.recordFor_left (s := s.beginRequest r) _

/-! ### LOAD_SAMPLE: the head length and the checks -/

/-- R4: the head length by its five bounds. -/
theorem clampHead_bounds (frames requested : Nat) :
    let h := clampHead frames requested
    (h % 1024 = 0 ∧ h ≤ requested ∧ h ≤ 65536 ∧ h ≤ frames) ∧
    (∀ m, m % 1024 = 0 → m ≤ requested → m ≤ 65536 → m ≤ frames → m ≤ h) ∧
    (frames < 1024 → h = 0) ∧ (requested < 1024 → h = 0) := by
  intro h
  have is : h = min (min (requested / 1024 * 1024) 65536) (frames / 1024 * 1024) := rfl
  clear_value h
  exact ⟨by omega, fun m _ _ _ _ => by omega, by omega, by omega⟩

/-- A check that is asked once those before it have passed. -/
theorem Checked.guarded {checks : List (Nat × Bool)} {ranges : List (Nat × Prop)} {n : Nat} {ok : Bool} {p : Prop}
    (h : ok = true ↔ p) (later : p → Checked checks ranges) : Checked ((n, ok) :: checks) ((n, p) :: ranges) := by
  by_cases holds : p
  · exact .cons h (later holds)
  · refine ⟨fun ordinal out => ?_, fun all => absurd (all _ List.mem_cons_self) holds⟩
    rcases firstOut_cons out with ⟨not, rfl⟩ | ⟨holds', -⟩
    · exact if_neg (mt h.mp not)
    · exact absurd holds' holds

/-- 8.10: a format's code is its bytes per sample. -/
theorem formatBytes_ofCode {code : Nat} (known : code ∈ [2, 3, 4]) : formatBytes (formatOfCode code) = code := by
  simp only [List.mem_cons, List.not_mem_nil, or_false] at known
  rcases known with rfl | rfl | rfl <;> rfl

theorem le_one_iff_mem {n : Nat} : n ≤ 1 ↔ n ∈ [0, 1] := by
  rw [List.mem_cons, List.mem_singleton]
  omega

theorem not_beq_or_decide {n : Nat} {p : Prop} [Decidable p] : (!(n == 1) || decide p) = true ↔ (n = 1 → p) := by
  rw [Bool.or_eq_true, Bool.not_eq_true', beq_eq_false_iff_ne, decide_eq_true_iff, imp_iff_not_or]

/-- R3: each check of a LOAD_SAMPLE is its range, the stride's once the format is known. -/
theorem loadChecks_checked (b : List Byte) : Checked (loadChecks b) (loadRanges b) := by
  have frames : field b 13 4 < 2 ^ 32 := field_lt b 13 4
  refine .cons decide_eq_true_iff <| .cons (decide_eq_true_iff.trans (show field b 5 8 < 2 ^ 40 ↔ _ by omega)) <|
    .cons (decide_eq_true_iff.trans (show 1 ≤ field b 13 4 ↔ _ by omega)) <| .cons decide_and_decide <|
    .guarded (decide_and_decide.trans ?_) fun known => .cons (decide_eq_true_iff.trans le_one_iff_mem) <|
    .cons (decide_and_decide.trans ?_) <| .cons (decide_eq_true_iff.trans le_one_iff_mem) <|
    .cons not_beq_or_decide <| .cons ?_ <| .cons (decide_eq_true_iff.trans le_one_iff_mem) .nil
  · show 2 ≤ field b 18 1 ∧ field b 18 1 ≤ 4 ↔ _
    simp only [List.mem_cons, List.not_mem_nil, or_false]
    omega
  · rw [loadFormatCode, formatBytes_ofCode known]
    rfl
  · rw [← Bool.decide_and]
    exact not_beq_or_decide

/-! ### The head pages (R5) -/

/-- R5: the page run of an accepted load by its bound and by the runs of the other entries. -/
theorem loadPages_eq (b : List Byte) :
    loadPages b = (clampHead (field b 13 4) (field b 21 4) * field b 20 1 + 65535) / 65536 := by
  show (clampHead (field b 13 4) (field b 21 4) * field b 20 1 + 65536 - 1) / 65536 = _
  rw [Nat.add_sub_assoc (by decide)]

theorem State.runRefusal?_headless {s : State} {b : List Byte} (none_ : loadHead b = 0) : s.runRefusal? b = none :=
  if_pos none_

theorem State.runRefusal?_range {s : State} {b : List Byte} (head : 0 < loadHead b)
    (beyond : 262143 < loadPageBase b + loadPages b - 1) : s.runRefusal? b = some (refusal .headRange) := by
  rw [State.runRefusal?, if_neg (Nat.ne_of_gt head), if_pos (show pageLimit < _ by rw [pageLimit]; omega)]

theorem State.runRefusal?_within {s : State} {b : List Byte} (head : 0 < loadHead b)
    (within : loadPageBase b + loadPages b - 1 ≤ 262143) :
    s.runRefusal? b = (s.overlapping? (loadPageBase b) (loadPages b)).map fun h =>
      { refusal .headOverlap with detail := h } := by
  rw [State.runRefusal?, if_neg (Nat.ne_of_gt head), if_neg (show ¬ pageLimit < _ by rw [pageLimit]; omega)]

/-- R5: the lowest handle whose run shares a page. -/
theorem State.overlapping?_lowest {s : State} (rise : Table.Rising s.library.samples) {base count g : Nat}
    {e : SampleEntry} (entry : s.entry? g = some e) (shares : runsOverlap base count e = true)
    (lowest : ∀ k f, s.entry? k = some f → runsOverlap base count f = true → g ≤ k) :
    s.overlapping? base count = some g := by
  have listed : (g, e) ∈ s.library.samples := Table.mem_of_get? entry
  have rows : ∀ row ∈ s.library.samples, s.entry? row.1 = some row.2 := fun row mem => Table.get?_of_mem rise mem
  rw [State.overlapping?, Option.map_eq_some_iff]
  cases first : s.library.samples.find? fun row => runsOverlap base count row.2 with
  | none => exact absurd shares (List.find?_eq_none.mp first _ listed)
  | some row =>
    have mem := List.mem_of_find?_eq_some first
    have least : g ≤ row.1 := lowest row.1 row.2 (rows row mem) (List.find?_some (p := fun row : Nat × SampleEntry => runsOverlap base count row.2) first)
    refine ⟨row, rfl, Nat.le_antisymm ?_ least⟩
    obtain ⟨-, before, after, split, passed⟩ := List.find?_eq_some_iff_append.mp first
    have behind : (g, e) ∈ row :: after := by
      refine (List.mem_append.mp (split ▸ listed)).resolve_left fun early => ?_
      have not := passed _ early
      rw [shares] at not
      cases not
    rcases List.mem_cons.mp behind with same | later
    · exact same ▸ Nat.le_refl _
    · rw [Table.Rising, split] at rise
      exact Nat.le_of_lt ((List.pairwise_cons.mp (List.pairwise_append.mp rise).2.1).1 _ later)


/-! ### The entry of an accepted load (R6) -/

theorem crc32_nil : crc32 [] = 0 := rfl

/-- R6: with no head the check value must be that of no bytes. -/
theorem emptyHeadMatches_some (c : BitVec 32) : emptyHeadMatches (some c) = true ↔ c = 0 := by
  rw [emptyHeadMatches, crc32_nil, beq_iff_eq]
  exact eq_comm

/-- R6: the entry of a load, before its priming. -/
def loadedEntry (b : List Byte) : SampleEntry :=
  { state := .priming, lane := laneOfNumber (field b 4 1), baseUnit := field b 5 8, frames := field b 13 4,
    channels := field b 17 1, format := formatOfCode (field b 18 1), order := orderOfCode (field b 19 1),
    stride := field b 20 1, headFrames := loadHead b, pageBase := if loadHead b = 0 then 0 else loadPageBase b,
    pageCount := if loadHead b = 0 then 0 else loadPages b,
    loop := if field b 29 1 = 1 then some ⟨field b 30 4, field b 34 4⟩ else none, check := loadCheck b,
    refCount := 0, progress := 0, fault := none }

theorem loadEntry_headed {b : List Byte} (head : 0 < loadHead b) : loadEntry b = loadedEntry b := by
  have some : loadHead b ≠ 0 := Nat.ne_of_gt head
  simp only [loadEntry, loadedEntry, some, ne_eq, not_false_eq_true, if_true, if_false, false_and]
  rfl

theorem loadEntry_headless {b : List Byte} (none_ : loadHead b = 0) : loadEntry b =
    if emptyHeadMatches (loadCheck b) then { loadedEntry b with state := .ready }
    else { loadedEntry b with state := .faulted, fault := some .check } := by
  cases matching : emptyHeadMatches (loadCheck b) <;>
    simp only [loadEntry, loadedEntry, none_, matching, ne_eq, not_true_eq_false, if_true, if_false, and_true, and_false,
      Bool.true_eq_false, Bool.false_eq_true] <;> rfl

/-- R6: the entry of a load that has a head is written, and joins its lane's list. -/
theorem State.storeLoad_headed {s : State} {h : Nat} {e : SampleEntry} (head : e.headFrames ≠ 0) :
    s.storeLoad h e = (s.putEntry h e).setLane e.lane
      { s.lane e.lane with
        primingList := (s.lane e.lane).primingList ++ [h]
        segments := if (s.lane e.lane).primingList.isEmpty then
            (s.putEntry h e).recordFor ((s.lane e.lane).primingList ++ [h])
          else (s.lane e.lane).segments } := if_neg head

theorem State.announceLoad_ready (s : State) (h : Nat) {e : SampleEntry} (is : e.state = .ready) :
    s.announceLoad h e = s.raise (.primeDone h .ready) := by
  rw [State.announceLoad, is]

theorem State.announceLoad_faulted (s : State) (h : Nat) {e : SampleEntry} (is : e.state = .faulted) :
    s.announceLoad h e = s.raise (.primeDone h .check) := by
  rw [State.announceLoad, is]

theorem State.announceLoad_priming (s : State) (h : Nat) {e : SampleEntry} (is : e.state = .priming) :
    s.announceLoad h e = s := by
  rw [State.announceLoad, is]

theorem State.storeLoad_entry? (s : State) (h : Nat) (e : SampleEntry) (k : Nat) :
    (s.storeLoad h e).entry? k = if k = h then some e else s.entry? k := by
  have put := s.putEntry_entry? h k e
  rw [State.storeLoad]
  split
  · exact put
  · exact put

theorem State.storeLoad_lane (s : State) (h : Nat) {e : SampleEntry} {l : LaneId} (other : e.headFrames = 0 ∨ l ≠ e.lane) :
    (s.storeLoad h e).lane l = s.lane l := by
  by_cases none_ : e.headFrames = 0
  · rw [State.storeLoad, if_pos none_]
    rfl
  · rw [State.storeLoad_headed none_]
    exact ((s.putEntry h e).lane_setLane e.lane l _).trans (if_neg (other.resolve_left none_))

theorem State.announceLoad_lane (s : State) (h : Nat) (e : SampleEntry) (l : LaneId) :
    (s.announceLoad h e).lane l = s.lane l := by
  rw [State.lane, (s.announceLoad_goes h e).only.lanes (by decide)]
  rfl

theorem State.announceLoad_entry? (s : State) (h : Nat) (e : SampleEntry) (k : Nat) :
    (s.announceLoad h e).entry? k = s.entry? k := by
  rw [State.entry?, (s.announceLoad_goes h e).only.library (by decide)]
  rfl

/-- R7: the handle joins its lane's list, and is set up where it is alone in it. -/
theorem State.storeLoad_joins {s : State} {h : Nat} {e : SampleEntry} (head : e.headFrames ≠ 0) :
    (s.storeLoad h e).lane e.lane =
        { s.lane e.lane with primingList := (s.lane e.lane).primingList ++ [h],
                             segments := ((s.storeLoad h e).lane e.lane).segments } ∧
      ((s.lane e.lane).primingList = [] →
        NextSetUp (s.storeLoad h e) [h] ((s.storeLoad h e).lane e.lane).segments) ∧
      ((s.lane e.lane).primingList ≠ [] →
        ((s.storeLoad h e).lane e.lane).segments = (s.lane e.lane).segments) := by
  have entry := s.storeLoad_entry? h e h
  rw [if_pos rfl] at entry
  have lane : (s.storeLoad h e).lane e.lane = _ :=
    (congrArg (fun t : State => t.lane e.lane) (State.storeLoad_headed head)).trans (State.lane_setLane_same _ _ _)
  have segments := congrArg Lane.segments lane
  refine ⟨lane.trans (congrArg (fun g => Lane.mk _ _ _ _ _ _ _ g _) segments.symm), fun alone => ?_, fun some => ?_⟩
  · have fresh : (s.putEntry h e).recordFor [h] = freshSegments e := by
      rw [State.recordFor, State.putEntry_entry?, if_pos rfl]
    rw [segments]
    dsimp only
    rw [alone, if_pos List.isEmpty_nil, List.nil_append, fresh]
    refine ⟨nofun, fun g more f list is => ?_⟩
    cases list
    rw [entry] at is
    cases is
    rfl
  · rw [segments]
    exact if_neg fun empty => some (List.isEmpty_iff.mp empty)

/-- The state that a load carried out leaves, its lanes not yet dispatched. -/
def State.loaded (s : State) (r : Request) : State :=
  ((s.storeLoad (loadHandle r.body) (loadEntry r.body)).reply r (okWith (loadResult (loadEntry r.body)))).announceLoad
    (loadHandle r.body) (loadEntry r.body)

theorem State.loadSample_refused {s : State} {r : Request} {a : Answer} (refused : s.loadRefusal? r.body = some a) :
    s.loadSample r = s.reply r a := by
  rw [State.loadSample, refused]

theorem State.loadSample_accepted {s : State} {r : Request} (accepted : s.loadRefusal? r.body = none) :
    s.loadSample r = (s.loaded r).dispatch := by
  rw [State.loadSample, accepted]
  rfl

/-- R3: the checks in their order. -/
theorem State.loadRefusal?_checked {s : State} {b : List Byte} (known : loadHandle b ≤ 131071)
    (empty : s.entry? (loadHandle b) = none) : s.loadRefusal? b =
      match firstFailure (loadChecks b) with
      | some ordinal => some (badField ordinal)
      | none => s.runRefusal? b := by
  rw [State.loadRefusal?, if_neg (Nat.not_le.mpr (Nat.lt_succ_iff.mpr known) : ¬ handleCount ≤ loadHandle b),
    empty]
  exact if_neg Bool.false_ne_true

theorem State.loaded_changes {s : State} (r : Request) : s.ChangesOnly (s.loaded r) [.library, .lanes, .report] :=
  (((s.storeLoad_goes _ _).only.wider (by decide)).trans
    ((State.setReport_changes _ _).wider (by decide) : State.ChangesOnly _ (State.reply _ r _) _)).trans
    ((State.announceLoad_goes _ _ _).only.wider (by decide))

theorem State.loaded_entry? (s : State) (r : Request) (k : Nat) :
    (s.loaded r).entry? k = if k = loadHandle r.body then some (loadEntry r.body) else s.entry? k :=
  (State.announceLoad_entry? _ _ _ _).trans (s.storeLoad_entry? _ _ k)

theorem State.loaded_lane (s : State) (r : Request) (l : LaneId) :
    (s.loaded r).lane l = (s.storeLoad (loadHandle r.body) (loadEntry r.body)).lane l :=
  State.announceLoad_lane _ _ _ _

/-- R6: the reply is placed before PRIME_DONE is raised. -/
theorem State.Takes.loaded_report {s : State} {r : Request} {rest : List Request} (takes : s.Takes r rest) :
    (((s.beginRequest r).storeLoad (loadHandle r.body) (loadEntry r.body)).reply r
      (okWith (loadResult (loadEntry r.body)))).report =
      (s.answered r rest (okWith (loadResult (loadEntry r.body)))).report := by
  rw [State.reply_eq, State.setReport_report, (State.storeLoad_goes _ _ _).only.report (by decide)]
  exact congrArg State.report (takes.beginRequest_reply _)

/-- Settles O54: the refusals in their order, then the entry, its lane, the reply and the outcome told at once. -/
theorem loadSample : Obligations.LoadSample := by
  refine ⟨clampHead_bounds, fun s r rest takes kind mark => ?_⟩
  intro b handle head pages base refused
  have served : exec .loadSample s = .next ((s.beginRequest r).loadSample r) :=
    (exec_loadSample s).trans (takes.serve _ (isRequest_self kind mark))
  have refuse (a : Answer) (is : (s.beginRequest r).loadRefusal? b = some a) : refused a :=
    served.trans (congrArg Host.Outcome.next ((State.loadSample_refused is).trans (takes.beginRequest_reply a)))
  have headIs : loadHead b = head := rfl
  have pagesAre : loadPages b = pages := loadPages_eq b
  clear_value pages
  refine ⟨fun beyond => refuse _ ?_, fun known => ⟨fun busy => refuse _ ?_, fun empty => ?_⟩⟩
  · exact if_pos beyond
  · rw [State.loadRefusal?, if_neg (Nat.not_le.mpr (Nat.lt_succ_iff.mpr known) : ¬ handleCount ≤ loadHandle b)]
    exact if_pos busy
  · obtain ⟨fails, passes⟩ := loadChecks_checked b
    have checked := State.loadRefusal?_checked (s := s.beginRequest r) (b := b) known empty
    refine ⟨fun ordinal out => refuse _ ?_, fun all => ⟨fun headed beyond => refuse _ ?_,
      fun headed within rise g e entry shares lowest => refuse _ ?_, fun fits => ?_⟩⟩
    · rw [checked, fails ordinal out]
      rfl
    · rw [checked, passes all]
      exact State.runRefusal?_range headed (pagesAre ▸ beyond)
    · rw [checked, passes all]
      refine (State.runRefusal?_within headed (pagesAre ▸ within)).trans ?_
      rw [State.overlapping?_lowest (s := s.beginRequest r) rise entry (pagesAre ▸ shares) (pagesAre ▸ lowest)]
      rfl
    · have accepted : (s.beginRequest r).loadRefusal? b = none := by
        rw [checked, passes all]
        rcases Nat.eq_zero_or_pos head with headless | headed
        · exact State.runRefusal?_headless headless
        · obtain ⟨within, apart⟩ := fits.resolve_left (Nat.ne_of_gt headed)
          refine (State.runRefusal?_within headed (pagesAre ▸ within)).trans (Option.map_eq_none_iff.mpr ?_)
          refine Option.map_eq_none_iff.mpr (List.find?_eq_none.mpr fun row mem => ?_)
          rw [pagesAre, show runsOverlap (loadPageBase b) pages row.2 = false from apart row mem]
          exact Bool.false_ne_true
      intro entry ok list
      have entryIs : loadedEntry b = entry := by
        rw [loadedEntry, pagesAre]
        rfl
      have answer : okWith (loadResult (loadEntry b)) = ok := by
        show okWith (toBE 4 (loadHead b) ++ toBE 2 (if loadHead b = 0 then 0 else loadPages b)) = _
        rw [pagesAre]
        rfl
      have told := takes.loaded_report.trans (congrArg (fun a => (s.answered r rest a).report) answer)
      have only := State.loaded_changes (s := s.beginRequest r) r
      have stored := State.loaded_entry? (s.beginRequest r) r
      have port : (s.beginRequest r).port = { s.port with mgmtQueue := rest } := by rw [takes.beginRequest]
      have ready (headless : head = 0) (matching : emptyHeadMatches (loadCheck b) = true) :
          ((s.beginRequest r).loaded r).entry? handle = some { entry with state := .ready } ∧
            ((s.beginRequest r).loaded r).report = (s.answered r rest ok).report.raise (.primeDone handle .ready) := by
        have is := (loadEntry_headless headless).trans (if_pos matching)
        refine ⟨(stored handle).trans ((if_pos rfl).trans (congrArg _ ?_)), ?_⟩
        · rw [is, entryIs]
        · exact (congrArg State.report (State.announceLoad_ready _ _ (congrArg SampleEntry.state is))).trans
            (congrArg (Report.raise · _) told)
      have failed (headless : head = 0) (other : emptyHeadMatches (loadCheck b) = false) :
          ((s.beginRequest r).loaded r).entry? handle = some { entry with state := .faulted, fault := some .check } ∧
            ((s.beginRequest r).loaded r).report = (s.answered r rest ok).report.raise (.primeDone handle .check) := by
        have is := (loadEntry_headless headless).trans (if_neg (Bool.eq_false_iff.mp other))
        refine ⟨(stored handle).trans ((if_pos rfl).trans (congrArg _ ?_)), ?_⟩
        · rw [is, entryIs]
        · exact (congrArg State.report (State.announceLoad_faulted _ _ (congrArg SampleEntry.state is))).trans
            (congrArg (Report.raise · _) told)
      refine ⟨(s.beginRequest r).loaded r, ?_, (only.port (by decide)).trans port, fun k other => ?_,
        fun headed => ?_, fun headless unchecked => ?_, fun headless c check => ?_, fun l other => ?_,
        only.slots (by decide), only.voices (by decide), only.cadence (by decide), only.pass (by decide),
        only.config (by decide), only.headStore (by decide), only.ringStore (by decide)⟩
      · rw [served, State.loadSample_accepted accepted]
      · rw [stored, if_neg (show k ≠ loadHandle r.body from other)]
        rfl
      · have headedEntry : loadEntry b = entry := (loadEntry_headed headed).trans entryIs
        obtain ⟨lane, alone, behind⟩ := State.storeLoad_joins (s := s.beginRequest r) (h := handle) (e := entry)
          (Nat.ne_of_gt headed)
        have lanes (l : LaneId) : ((s.beginRequest r).loaded r).lane l = ((s.beginRequest r).storeLoad handle entry).lane l :=
          headedEntry ▸ State.loaded_lane (s.beginRequest r) r l
        refine ⟨?_, ?_, ?_, fun empty => ?_, fun some => ?_⟩
        · rw [stored]
          exact (if_pos rfl).trans (congrArg _ headedEntry)
        · exact (congrArg State.report (State.announceLoad_priming _ _
            (congrArg SampleEntry.state headedEntry))).trans told
        · rw [lanes]
          exact lane
        · rw [lanes]
          have next := alone empty
          refine ⟨next.1, fun g more f is entry' => next.2 g more f is ?_⟩
          rw [State.storeLoad_entry?, ← headedEntry]
          exact (stored g).symm.trans entry'
        · rw [lanes]
          exact behind some
      · exact ready headless (congrArg emptyHeadMatches unchecked)
      · have is := congrArg emptyHeadMatches check
        refine ⟨fun zero => ready headless (is.trans ((emptyHeadMatches_some c).mpr zero)), fun other => ?_⟩
        exact failed headless (is.trans (Bool.eq_false_iff.mpr (mt (emptyHeadMatches_some c).mp other)))
      · rw [State.loaded_lane]
        exact State.storeLoad_lane (s.beginRequest r) _ (e := loadEntry b) other

end Sys2Proof.Machine
end

section
/-! SUPPORT. CONFIGURE (R121, R167, R168): the layout of its body, its checks, and the tracker that it leaves. -/

namespace Sys2Proof.Machine

/-- 8.10: the parameters of a CONFIGURE in range lie at their bytes. -/
theorem configOf_configBytes {c : Configuration} (inRange : c.InRange) :
    configOf (configBytes c) = c ∧ field (configBytes c) 23 1 ≤ 1 ∧ field (configBytes c) 24 1 ≤ 1 := by
  obtain ⟨sampleRate, period, -, lead, -, voiceLimit, -, lowWater, quietFloor, quietRun, -, readTimeout, -, laneThreshold,
    tolerance, -, errorWindow, -, errorLimit, -, missedLimit⟩ := inRange
  simp only [List.mem_cons, List.not_mem_nil, or_false] at sampleRate period
  rcases c with ⟨r, p, l, v, w, f, q, o, n, j, wt, m, k, action, relock⟩
  dsimp only at *
  have action' : (if lostActionCode action % 256 = 0 then LostAction.freeze else .finish) = action ∧
      lostActionCode action % 256 ≤ 1 := by cases action <;> decide
  have relock' : (boolCode relock % 256 == 1) = relock ∧ boolCode relock % 256 ≤ 1 := by cases relock <;> decide
  obtain ⟨action', actionSmall⟩ := action'
  obtain ⟨relock', relockSmall⟩ := relock'
  simp only [configBytes, List.append_assoc]
  refine ⟨?_, by simpa using actionSmall, by simpa using relockSmall⟩
  simp only [configOf, field_toBE, field_toBE_only, field_toBE_later, Nat.reduceSub, Nat.reduceLeDiff, Nat.reducePow]
  simp only [action', relock', Configuration.mk.injEq, and_true]
  omega

theorem mem_five {n a b c d e : Nat} : ((n == a || n == b || n == c || n == d || n == e) = true) ↔ n ∈ [a, b, c, d, e] := by
  simp [or_assoc]

theorem mem_four {n a b c d : Nat} : ((n == a || n == b || n == c || n == d) = true) ↔ n ∈ [a, b, c, d] := by
  simp [or_assoc]

/-- R167: each check of a CONFIGURE is its range. -/
theorem configChecks_checked (b : List Byte) : Checked (configChecks b) (configRanges b) :=
  .cons mem_four <| .cons mem_five <| .cons decide_and_decide <| .cons decide_and_decide <| .cons decide_and_decide <|
    .cons decide_eq_true_iff <| .cons decide_eq_true_iff <| .cons decide_and_decide <| .cons decide_and_decide <|
    .cons decide_eq_true_iff <| .cons decide_and_decide <| .cons decide_and_decide <| .cons decide_and_decide <|
    .cons (decide_eq_true_iff.trans le_one_iff_mem) <| .cons (decide_eq_true_iff.trans le_one_iff_mem) .nil

theorem configChecks_pass {c : Configuration} (inRange : c.InRange) : firstFailure (configChecks (configBytes c)) = none := by
  obtain ⟨same, action, relock⟩ := configOf_configBytes inRange
  obtain ⟨sampleRate, period, lead, lead', voiceLimit, voiceLimit', lowWater, lowWater', quietFloor, quietRun,
    readTimeout, readTimeout', laneThreshold, laneThreshold', tolerance, errorWindow, errorWindow', errorLimit,
    errorLimit', missedLimit, missedLimit'⟩ := inRange
  rw [configChecks, same]
  simp only [firstFailure, mem_four.mpr sampleRate, mem_five.mpr period, lead, lead', voiceLimit, voiceLimit', lowWater,
    lowWater', quietFloor, quietRun, readTimeout, readTimeout', laneThreshold, laneThreshold', tolerance, errorWindow,
    errorWindow', errorLimit, errorLimit', missedLimit, missedLimit', action, relock, decide_true, Bool.and_self, if_true]

theorem Cadence.resetTracker_eq (c : Cadence) : c.resetTracker = trackerReset c := rfl

/-- R120: the reports when the tracker enters SEARCH from the state that `c` holds. -/
def searchTold (c : Cadence) (q : Report) : Report :=
  if c.state = .search then q else q.raise (.cadenceState c.state c.misaligned .search false)

theorem searchTold_event (c : Cadence) (q : Report) (r : Request) (k : EventKind) :
    (searchTold c { q with busy := some r }).event k = (searchTold c q).event k := by
  unfold searchTold
  split
  · rfl
  · exact Report.raise_event_busy q r _ k

theorem searchTold_endList (c : Cadence) (q : Report) : (searchTold c q).endList = q.endList := by
  unfold searchTold
  split
  · rfl
  · exact q.raise_endList _

theorem searchTold_reading (c : Cadence) (q : Report) : (searchTold c q).reading = q.reading := by
  unfold searchTold
  split
  · rfl
  · exact q.raise_reading _

/-- R121: the tracker's part of an accepted CONFIGURE. -/
theorem State.configureTracker_eq (s : State) : s.configureTracker =
    { s with cadence := trackerReset s.cadence, report := searchTold s.cadence s.report } := by
  unfold searchTold
  rw [State.configureTracker]
  by_cases search : s.cadence.state = .search
  · rw [if_pos search, if_pos search]
    rfl
  · rw [if_neg search, if_neg search]
    rfl

theorem State.configure_refused {s : State} {r : Request} (voices : s.voices = []) {ordinal : Nat}
    (failed : firstFailure (configChecks r.body) = some ordinal) : s.configure r = s.reply r (badField ordinal) := by
  rw [State.configure, voices, if_pos List.isEmpty_nil, failed]

theorem State.configure_accepted {s : State} {r : Request} (voices : s.voices = [])
    (passed : firstFailure (configChecks r.body) = none) :
    s.configure r = (s.adopt r).betweenPasses r State.finishConfigure := by
  rw [State.configure, voices, if_pos List.isEmpty_nil, passed]

theorem State.adopt_idle {s : State} (pass : s.pass = none) (r : Request) : s.adopt r =
    { s with config := configOf r.body, port := { s.port with partner := some r.source } } :=
  if_neg (show ¬ s.pass.isSome = true by rw [pass]; exact Bool.false_ne_true)

theorem State.adopt_pass {s : State} {p : Pass} (pass : s.pass = some p) (r : Request) : s.adopt r =
    { s with config := configOf r.body, port := { s.port with partner := some r.source },
             cadence := { s.cadence with heldConfig := some s.config } } :=
  if_pos (show s.pass.isSome = true by rw [pass]; rfl)

/-- Settles O53: the two refusals, then the configuration taken over at once or beside the pass under way. -/
theorem configure : Obligations.Configure := by
  intro s r rest takes kind mark
  have served : exec .configure s = .next ((s.beginRequest r).configure r) :=
    (exec_configure s).trans (takes.serve _ (isRequest_self kind mark))
  obtain ⟨fails, -⟩ := configChecks_checked r.body
  have begun := takes.beginRequest
  refine ⟨fun some => ?_, fun voices ordinal out => ?_, ?_⟩
  · rw [served, State.configure]
    exact congrArg Host.Outcome.next ((if_neg (mt List.isEmpty_iff.mp some)).trans (takes.beginRequest_reply _))
  · rw [served, State.configure_refused (s := s.beginRequest r) voices (fails ordinal out), takes.beginRequest_reply]
    rfl
  intro c voices body inRange port
  have config : configOf r.body = c := body ▸ (configOf_configBytes inRange).1
  have accepted := State.configure_accepted (s := s.beginRequest r) voices (r := r) (body ▸ configChecks_pass inRange)
  refine ⟨fun pass => ?_, fun p pass => ?_⟩
  · intro told
    rw [State.adopt_idle (s := s.beginRequest r) pass, config] at accepted
    refine ⟨_, served.trans (congrArg Host.Outcome.next (accepted.trans (if_neg ?_))), ?_⟩
    · show ¬ s.pass.isSome = true
      rw [pass]
      exact Bool.false_ne_true
    rw [State.finishConfigure, State.configureTracker_eq]
    refine ⟨rfl, ?_, rfl, fun k => ?_, ?_, rfl, ?_, ?_, rfl, rfl, rfl, rfl, rfl, rfl, rfl⟩
    · rw [begun]
      rfl
    · exact searchTold_event s.cadence s.report r k
    · exact searchTold_endList _ _
    · exact searchTold_reading _ _
    · exact kind ▸ Report.replied_last _ r okAnswer
  · rw [State.adopt_pass (s := s.beginRequest r) pass, config] at accepted
    refine served.trans (congrArg Host.Outcome.next (accepted.trans ((if_pos ?_).trans ?_)))
    · show s.pass.isSome = true
      rw [pass]
      rfl
    · rw [begun]

end Sys2Proof.Machine
end

section
/-! SUPPORT. The soft reset (R20, R36, R61, R85, R102, R121, R162, R174, R186): what it leaves of every block. -/

namespace Sys2Proof.Machine

/-! ### The staged matrices (R34, R36) -/

theorem FoldMatrix.apply_initial : FoldMatrix.apply FoldMatrix.initial = FoldMatrix.initial := rfl

/-- A matrix that is applied, unless it is back at its initial value. -/
def FoldMatrix.applied? (m : FoldMatrix) : Option FoldMatrix :=
  if FoldMatrix.apply m = FoldMatrix.initial then none else some (FoldMatrix.apply m)

theorem FoldMatrix.applied?_getD (m : FoldMatrix) : (FoldMatrix.applied? m).getD FoldMatrix.initial = FoldMatrix.apply m := by
  rw [FoldMatrix.applied?]
  split
  · rename_i initial
    exact initial.symm
  · rfl

theorem appliedMatrices_eq (t : Table FoldMatrix) :
    ((t.map fun row => (row.1, FoldMatrix.apply row.2)).filter fun row => row.2 != FoldMatrix.initial) =
      t.filterMap fun row => (FoldMatrix.applied? row.2).map fun m => (row.1, m) := by
  rw [List.filter_map, ← List.filterMap_eq_filter, List.map_filterMap]
  refine List.filterMap_congr fun row _ => ?_
  rw [FoldMatrix.applied?]
  by_cases initial : FoldMatrix.apply row.2 = FoldMatrix.initial
  · simp [initial]
  · simp [initial]

/-- R34: each matrix with its pending copy applied. -/
theorem State.applyMatrices_matrix {s : State} (rise : Table.Rising s.library.matrices) (i : Nat) :
    s.applyMatrices.matrix i =
      if (s.matrix i).pending = true then { s.matrix i with active := (s.matrix i).staged, pending := false }
      else s.matrix i := by
  have applied : s.applyMatrices.matrix i = FoldMatrix.apply (s.matrix i) := by
    show ((Table.get? _ i).getD FoldMatrix.initial) = FoldMatrix.apply ((Table.get? _ i).getD FoldMatrix.initial)
    rw [State.applyMatrices, State.setLibrary_library]
    dsimp only
    rw [appliedMatrices_eq, Table.get?_filterMap _ rise]
    cases Table.get? s.library.matrices i with
    | none => rfl
    | some m => exact FoldMatrix.applied?_getD m
  exact applied

/-! ### The slots and the lanes -/

theorem State.softReset_slot? {s : State} (rise : Table.Rising s.slots) (v j : Nat) :
    s.softReset.slot? v j = (s.slot? v j).bind abandonSlot :=
  Table.get?_filterMap abandonSlot rise _

/-- R20, R102: a lane after a soft reset. -/
theorem State.softReset_lane (s : State) (l : LaneId) : ∃ t : State,
    (∀ h, t.entry? h = s.softReset.entry? h) ∧ s.softReset.lane l = t.resetLane (s.lane l) := by
  refine ⟨((((s.setSamples (resetEntries s.library.samples)).applyMatrices.setVoices []).setNextOrder 0).setSlots
    (resetSlots s.slots)), fun _ => rfl, ?_⟩
  cases l <;> rfl

theorem discardAnyRead_eq (r : ReadEntry) : discardAnyRead r = match r with
    | .busy (.priming h j _) a m ms => .busy (.priming h j true) a m ms
    | other => other := by
  cases r with
  | stale => rfl
  | busy owner => cases owner <;> rfl

theorem resetEntry_eq (e : SampleEntry) : resetEntry e = match e.state with
    | .priming => some { e with refCount := 0, progress := 0 }
    | .ready => some { e with refCount := 0 }
    | .faulted => some { e with refCount := 0 }
    | .retiring => none := by
  rw [resetEntry]
  cases e.state <;> rfl

theorem State.reply_slot? (s : State) (r : Request) (a : Answer) (v j : Nat) : (s.reply r a).slot? v j = s.slot? v j := rfl

theorem State.reply_lane (s : State) (r : Request) (a : Answer) (l : LaneId) : (s.reply r a).lane l = s.lane l := rfl

theorem State.reply_entry? (s : State) (r : Request) (a : Answer) (h : Nat) : (s.reply r a).entry? h = s.entry? h := rfl

theorem State.reply_matrix (s : State) (r : Request) (a : Answer) (i : Nat) : (s.reply r a).matrix i = s.matrix i := rfl

theorem State.softReset_matrix (s : State) (i : Nat) : s.softReset.matrix i = s.applyMatrices.matrix i := rfl

/-- R174: what the soft reset and its reply leave, before the lanes dispatch. -/
theorem State.softReset_left (s : State) (r : Request) : ResetLeft s (s.softReset.reply r okAnswer) r := by
  refine ⟨rfl, rfl, rfl, rfl, fun k => ?_, rfl, rfl, rfl, ?_, ?_, rfl, fun rise v j => ?_, fun l => ?_, fun rise h => ?_,
    fun i => ⟨rfl, rfl, rfl⟩, fun rise i => ?_, rfl, rfl, rfl⟩
  · rw [State.reply_event, State.softReset_report, Report.softReset_event]
    rfl
  · rw [State.reply_reading, State.softReset_report, Report.softReset_reading]
  · rw [State.reply_control, State.softReset_report, Report.softReset_control]
    rfl
  · exact (State.reply_slot? _ _ _ _ _).trans (State.softReset_slot? rise v j)
  · obtain ⟨t, entries, lane⟩ := s.softReset_lane l
    have marks : (fun row : Nat × ReadEntry => (row.1, discardAnyRead row.2)) = fun row => (row.1, match row.2 with
        | .busy (.priming h j _) a m ms => .busy (.priming h j true) a m ms
        | other => other) := funext fun row => congrArg _ (discardAnyRead_eq row.2)
    rw [State.reply_lane, lane]
    refine ⟨rfl, rfl, rfl, rfl, rfl, rfl, rfl, congrArg (fun f => (s.lane l).reads.map f) marks, fun h more e list entry priming rise => ?_⟩
    have left : t.entry? h = some { e with refCount := 0, progress := 0 } := by
      rw [entries, State.softReset_entry? rise, entry, Option.bind_some, resetEntry, priming]
    rw [State.resetLane]
    dsimp only
    rw [list, State.recordFor, left]
    rfl
  · rw [State.reply_entry?, State.softReset_entry? rise]
    exact congrArg (s.entry? h).bind (funext resetEntry_eq)
  · rw [State.reply_matrix, State.softReset_matrix]
    exact State.applyMatrices_matrix (s := s.setSamples (resetEntries s.library.samples)) rise i

/-- Settles O60: between passes the reset is made and answered, and during one it waits. -/
theorem reset : Obligations.Reset := by
  intro s r rest takes kind mark
  have served : exec .reset s = .next ((s.beginRequest r).betweenPasses r State.finishReset) :=
    (exec_reset s).trans (takes.serve _ (isRequest_self kind mark))
  refine ⟨fun pass => ?_, fun pass => ⟨(s.beginRequest r).softReset.reply r okAnswer, ?_, ?_⟩⟩
  · rw [served, takes.betweenPasses_waits pass]
  · rw [served, State.betweenPasses_finishes pass]
    rfl
  · have left := (s.beginRequest r).softReset_left r
    rw [takes.beginRequest] at left ⊢
    exact left

end Sys2Proof.Machine
end

section
/-! SUPPORT. The results of the queries, field by field (8.10), and the reading of a QUERY_STATUS (R170 to R172). -/

namespace Sys2Proof.Machine

/-! ### QUERY_SAMPLE -/

theorem spelled_first (f : Nat × Nat) (fields : List (Nat × Nat)) :
    spelled (f :: fields) = toBE f.1 f.2 ++ spelled fields := by
  rw [spelled_cons]

/-- The fields of a QUERY_SAMPLE result by their codes. -/
theorem sampleFields_eq (h : Nat) (e : SampleEntry) : sampleFields h e =
    [(4, h), (1, entryStateCode e.state), (1, faultCode e.fault), (1, laneNumber e.lane), (1, formatCode e.format),
     (1, orderCode e.order), (1, e.channels), (1, e.stride), (1, boolCode e.loop.isSome), (1, boolCode e.check.isSome),
     (8, e.baseUnit), (4, e.frames), (4, e.headFrames), (4, e.pageBase), (2, e.pageCount),
     (4, (e.loop.map SampleLoop.start).getD 0), (4, (e.loop.map SampleLoop.stop).getD 0),
     (4, (e.check.map BitVec.toNat).getD 0), (2, e.refCount), (2, e.progress)] := by
  rw [sampleFields, laneField_eq]
  rfl

theorem sampleResult_some (h : Nat) (e : SampleEntry) : sampleResult h (some e) = spelled (sampleFields h e) := by
  rw [sampleFields_eq]
  rcases e with ⟨state, lane, base, frames, channels, format, order, stride, head, page, pages, loop, check, count,
    progress, fault⟩
  cases loop <;> cases check <;>
    · dsimp only [sampleResult, Option.map_none, Option.map_some, Option.getD_none, Option.getD_some]
      simp only [spelled_first, List.append_assoc]
      rw [spelled_nil, List.append_nil]

/-! ### QUERY_VOICE -/

theorem reportedSource_some (x : Voice) (e : SampleEntry) : reportedSource x (some e) =
    let played := x.sourceOffset + x.emit.toNat
    if x.emit < 0 then x.sourceOffset
    else match e.loop with
      | none => played
      | some l =>
        if x.loopInEffect = true ∧ l.stop ≤ played then l.start + (played - l.stop) % (l.stop - l.start) else played := by
  dsimp only [reportedSource]
  refine ite_congr rfl (fun _ => rfl) fun _ => ?_
  rw [sourceFrame, loopOf]
  cases loop : e.loop with
  | none =>
    rw [ite_self]
  | some l =>
    cases x.loopInEffect with
    | false => exact (if_neg fun both => Bool.false_ne_true both.1).symm
    | true =>
      by_cases inside : x.sourceOffset + x.emit.toNat < l.stop
      · exact (if_pos inside).trans (if_neg fun both => Nat.not_le.mpr inside both.2).symm
      · exact (if_neg inside).trans (if_pos ⟨rfl, Nat.not_lt.mp inside⟩).symm

/-- The fields of a ramp where there is none are 0 (8.10). -/
theorem noRamp_eq : (List.replicate 10 0 : List Byte) = toBE 4 0 ++ (toBE 2 0 ++ toBE 4 0) := rfl

/-- The fields of a voice record by their codes. -/
theorem voiceFields_eq (v : Nat) (x : Voice) (e : SampleEntry) : voiceFields v x e =
    [(2, v), (1, voiceStateCode x.state), (1, quietCode x.quiet), (1, rampCode x.ramp), (1, boolCode x.late),
     (1, boolCode x.loopInEffect), (1, boolCode x.releasePoint.isSome), (4, x.tag.toNat), (4, x.startOrder.toNat),
     (4, x.handle), (2, x.zone), (1, x.matrix), (2, x.gain), (4, x.releaseLength), (4, x.startPeriod.toNat),
     (2, x.offset), (4, x.sourceOffset), (1, x.headChunks), (4, bits32 x.emit), (4, reportedSource x (some e)),
     (4, bits32 (x.releasePoint.getD 0)), (4, bits32 ((x.ramp.map Ramp.start).getD 0)),
     (2, (x.ramp.map Ramp.level).getD 0), (4, (x.ramp.map Ramp.length).getD 0), (2, rampLevel x.ramp x.emit),
     (1, x.quietCount), (2, x.dropouts), (2, x.clips)] := by
  have ramp : (match x.ramp with
      | none => 0
      | some ⟨.release, _, _, _⟩ => 1
      | some ⟨.stop, _, _, _⟩ => 2) = rampCode x.ramp := by
    rcases x.ramp with _ | ⟨_ | _, _, _, _⟩ <;> rfl
  rw [voiceFields, ← ramp, reportedSource_some]
  rfl

theorem voiceRecordResult_some (v : Nat) (x : Voice) (e : SampleEntry) :
    voiceRecordResult v x (some e) = spelled (voiceFields v x e) := by
  unfold voiceRecordResult
  rw [voiceFields_eq]
  cases x.ramp with
  | none =>
    dsimp only [Option.map_none, Option.getD_none]
    rw [noRamp_eq]
    simp only [toBESigned_eq, spelled_first, word32, bits32, List.append_assoc]
    rw [spelled_nil, List.append_nil]
    rfl
  | some ramp =>
    dsimp only [Option.map_some, Option.getD_some]
    simp only [toBESigned_eq, spelled_first, word32, bits32, List.append_assoc]
    rw [spelled_nil, List.append_nil]

/-- The fields of a slot record by their codes. -/
theorem slotFields_eq (x : Slot) : slotFields x =
    [(1, slotCode x.state), (1, boolCode x.retryUsed), (1, x.marks.length), (1, x.outstanding),
     (1, markCode x.marks[0]?), (1, markCode x.marks[1]?), (1, boolCode x.successor.isSome), (4, x.chunk),
     (4, x.deadline.toNat), (4, x.successor.getD 0)] := rfl

theorem slotResult_some (n index : Nat) (x : Slot) : slotResult n index (some x) = spelled (slotFields x) := by
  rw [slotFields_eq]
  simp only [slotResult, spelled_cons, spelled_nil, word32, List.append_assoc, List.append_nil]

/-! ### QUERY_STATUS -/

theorem State.statusPart_eq (s : State) (part : StatusPart) : s.statusPart part = spelled (statusFields s part) := by
  cases part with
  | tracker =>
    have index (i : Option PeriodIndex) : optionalIndex i = toBE 4 ((i.map BitVec.toNat).getD 0) := by cases i <;> rfl
    simp only [State.statusPart, statusFields, spelled_cons, spelled_nil, cadenceField_eq, yesField_eq, index,
      List.append_assoc, List.append_nil]
  | voices => rfl
  | port =>
    simp only [State.statusPart, statusFields, spelled_cons, spelled_nil, List.append_nil]
    rfl
  | lane l =>
    simp only [State.statusPart, laneBytes, statusFields, spelled_cons, spelled_nil, laneStateField_eq,
      List.append_assoc, List.append_nil]
    rfl
  | configuration =>
    have fields (c : Configuration) : configFields c =
        [(4, c.sampleRate), (2, c.period), (1, c.lead), (2, c.voiceLimit), (1, c.lowWater), (4, c.quietFloor),
         (1, c.quietRun), (1, c.readTimeout), (2, c.laneThreshold), (2, c.tolerance), (1, c.errorWindow),
         (1, c.errorLimit), (1, c.missedLimit), (1, lostActionCode c.lostAction), (1, boolCode c.autoRelock)] := rfl
    rw [State.statusPart, statusFields, fields]
    simp only [configBytes, spelled_cons, spelled_nil, List.append_assoc, List.append_nil]

/-! ### The reading of a QUERY_STATUS -/

/-- R172: the next parts of a QUERY_STATUS are read as they stand. -/
theorem State.readOn_eq (s : State) (r : Request) (g : StatusReading) (n : Nat) :
    s.readOn r g n = { s with report := statusRead s r g n } := by
  have parts (l : List StatusPart) : l.flatMap s.statusPart = l.flatMap fun part => spelled (statusFields s part) :=
    congrArg (l.flatMap ·) (funext s.statusPart_eq)
  rw [statusRead]
  rcases Nat.lt_or_ge n g.left.length with more | last
  · rw [s.readOn_more r g n more, if_neg (Nat.not_le.mpr more), parts]
    rfl
  · rw [s.readOn_last r g n last, if_pos last, parts, List.take_of_length_le last]
    rfl

theorem statusDone_eq {s : State} {r : Request} {g : StatusReading} (busy : s.report.busy = some r)
    (reading : s.report.reading = some g) : statusDone s = { s with report := statusRead s r g g.left.length } := by
  rw [statusDone, busy, reading]

theorem State.readOut_eq {s : State} {r : Request} {g : StatusReading} (busy : s.report.busy = some r)
    (reading : s.report.reading = some g) : s.readOut = statusDone s := by
  rw [State.readOut, Report.reading?_some.mpr ⟨busy, reading⟩, statusDone_eq busy reading]
  exact s.readOn_eq r g _

/-- R172: when all fields have been read, none is being read. -/
theorem statusDone_noneRead {s : State} {r : Request} {g : StatusReading} (busy : s.report.busy = some r)
    (reading : s.report.reading = some g) : (statusDone s).NoneRead := by
  rw [statusDone_eq busy reading, State.NoneRead, statusRead, if_pos (Nat.le_refl _)]
  exact .inl rfl

theorem statusRead_congr {s t : State} (fields : ∀ part, statusFields t part = statusFields s part)
    (report : t.report = s.report) (r : Request) (g : StatusReading) (n : Nat) : statusRead t r g n = statusRead s r g n := by
  rw [statusRead, report, funext fields]
  rfl

/-- R172: the parts that are left are read, and the REPLY takes its place. -/
theorem statusRead_all (s : State) (r : Request) (g : StatusReading) : statusRead s r g g.left.length =
    { s.report with
      control := s.report.control ++ [.reply r.source r.number r.kind
        ⟨.ok, 0, 0, g.told ++ g.left.flatMap fun part => spelled (statusFields s part)⟩]
      busy := none, reading := none } := by
  rw [statusRead, List.take_length]
  exact if_pos (Nat.le_refl _)

/-- R172: one part of several is read: the others are left. -/
theorem statusRead_one (s : State) (r : Request) (told : List Byte) (part : StatusPart) {rest : List StatusPart}
    (more : rest ≠ []) : statusRead s r ⟨told, part :: rest⟩ 1 =
      { s.report with reading := some ⟨told ++ spelled (statusFields s part), rest⟩ } := by
  have several : ¬ (part :: rest).length ≤ 1 := by
    have := List.length_pos_iff.mpr more
    rw [List.length_cons]
    omega
  rw [statusRead]
  dsimp only
  rw [if_neg several]
  show Report.mk _ _ _ _ _ _ = Report.mk _ _ _ _ _ _
  rw [List.take_succ_cons, List.take_zero, List.flatMap_cons, List.flatMap_nil, List.append_nil]
  rfl

/-- R172: reading one part and then all the others is reading all. -/
theorem statusDone_one {s : State} {r : Request} {told : List Byte} {part : StatusPart} {rest : List StatusPart}
    (busy : s.report.busy = some r) (reading : s.report.reading = some ⟨told, part :: rest⟩) (more : rest ≠ []) :
    statusDone { s with report := statusRead s r ⟨told, part :: rest⟩ 1 } = statusDone s := by
  have next := statusRead_one s r told part more
  have still : (statusRead s r ⟨told, part :: rest⟩ 1).busy = some r := by rw [next]; exact busy
  have later : (statusRead s r ⟨told, part :: rest⟩ 1).reading =
      some ⟨told ++ spelled (statusFields s part), rest⟩ := by rw [next]
  rw [statusDone_eq (s := { s with report := statusRead s r ⟨told, part :: rest⟩ 1 }) still later,
    statusDone_eq busy reading]
  refine congrArg (fun q => { s with report := q }) ?_
  rw [statusRead_all, statusRead_all]
  dsimp only
  rw [List.flatMap_cons, next, List.append_assoc]
  rfl

theorem step_reading {s : State} {r : Request} {g : StatusReading} (busy : s.report.busy = some r)
    (reading : s.report.reading = some g) (idle : s.pending = []) :
    step s = .next { s with report := statusRead s r g 1 } := by
  have reads : s.idle = s.readOn r g 1 := by rw [State.idle, Report.reading?_some.mpr ⟨busy, reading⟩]
  rw [← s.readOn_eq r g 1, ← reads, step, idle]

/-- R172: as many idle steps as parts are left read them all. -/
theorem stepsTo_statusDone {left : List StatusPart} {s : State} {r : Request} {told : List Byte}
    (busy : s.report.busy = some r) (reading : s.report.reading = some ⟨told, left⟩) (idle : s.pending = [])
    (some_ : left ≠ []) : stepsTo left.length s (statusDone s) := by
  induction left generalizing s told with
  | nil => exact absurd rfl some_
  | cons part rest ih =>
    refine ⟨_, step_reading busy reading idle, ?_⟩
    by_cases last : rest = []
    · subst last
      exact statusDone_eq busy reading
    · have next := statusRead_one s r told part last
      rw [← statusDone_one busy reading last]
      refine ih (told := told ++ spelled (statusFields s part)) ?_ ?_ idle last
      · show (statusRead s r _ 1).busy = _
        rw [next]
        exact busy
      · show (statusRead s r _ 1).reading = _
        rw [next]

/-! ### The events that open a pass while a QUERY_STATUS is being read (log 34) -/

/-- R172: an event that opens a pass when the fields are read opens it too while they are not, and has them read first. -/
theorem State.readBefore_statusDone {s : State} {r : Request} {g : StatusReading} (busy : s.report.busy = some r)
    (reading : s.report.reading = some g) {take : State → State}
    (same : (take s.readOut).passUnderWay = (take s).passUnderWay)
    (opens : ((statusDone s).readBefore take).pass.isSome = true) :
    s.readBefore take = (statusDone s).readBefore take := by
  rw [State.readBefore_noneRead (statusDone_noneRead busy reading)] at opens ⊢
  have is := State.readOut_eq busy reading
  rw [← is] at opens ⊢
  exact if_pos (same.symm.trans opens)

theorem State.tickReady_statusDone {s : State} {r : Request} {g : StatusReading} (busy : s.report.busy = some r)
    (reading : s.report.reading = some g) (elapsed : Nat) (rest : List HandedTick) :
    (statusDone s).tickReady elapsed rest = statusDone (s.tickReady elapsed rest) := by
  rw [statusDone_eq busy reading, statusDone_eq (s := s.tickReady elapsed rest) busy reading,
    statusRead_congr (s := s) (t := s.tickReady elapsed rest) (fun part => by cases part <;> rfl) rfl]
  rfl

theorem State.expireTimer_statusDone {s : State} {r : Request} {g : StatusReading} (busy : s.report.busy = some r)
    (reading : s.report.reading = some g) (expiry : Nat) :
    (statusDone s).expireTimer expiry = statusDone (s.expireTimer expiry) := by
  rw [statusDone_eq busy reading, statusDone_eq (s := s.expireTimer expiry) busy reading,
    statusRead_congr (s := s) (t := s.expireTimer expiry) (fun part => by cases part <;> rfl) rfl]
  rfl

theorem State.dispatch_pass (s : State) : s.dispatch.pass = s.pass := s.dispatch_goes.only.pass (by decide)

theorem execTick_waits {s : State} (none_ : ∀ n ∈ s.port.handed.head?, s.cadence.expiresBefore n.arrival = true)
    (elapsed : Nat) : execTick elapsed s = .next s := by
  rw [execTick]
  cases ticks : s.port.handed with
  | nil => rfl
  | cons n rest => exact if_pos (none_ n (by rw [ticks]; rfl))

theorem execTick_takes {s : State} {n : HandedTick} {rest : List HandedTick} (handed : s.port.handed = n :: rest)
    (first : s.cadence.expiresBefore n.arrival = false) (noPass : s.pass = none) (elapsed : Nat) :
    execTick elapsed s =
      .next ((s.tickReady elapsed rest).readBefore fun u => (u.judgeTick n.index n.arrival).afterEvent).dispatch := by
  rw [execTick, handed]
  exact (if_neg (Bool.eq_false_iff.mp first)).trans (if_neg fun under : s.pass.isSome = true => by
    rw [noPass] at under
    cases under)

theorem execLocalPeriodTimerExpiry_waits {s : State}
    (none_ : ∀ expiry ∈ s.cadence.timer, s.port.tickBefore expiry = true) : execLocalPeriodTimerExpiry s = .next s := by
  rw [execLocalPeriodTimerExpiry]
  cases timer : s.cadence.timer with
  | none => rfl
  | some expiry => exact if_pos (none_ expiry timer)

theorem execLocalPeriodTimerExpiry_takes {s : State} {expiry : Nat} (timer : s.cadence.timer = some expiry)
    (first : s.port.tickBefore expiry = false) (noPass : s.pass = none) : execLocalPeriodTimerExpiry s =
      .next ((s.expireTimer expiry).readBefore fun u => u.judgeExpiry.afterEvent).dispatch := by
  rw [execLocalPeriodTimerExpiry, timer]
  exact (if_neg (Bool.eq_false_iff.mp first)).trans (if_neg fun under : s.pass.isSome = true => by
    rw [noPass] at under
    cases under)

theorem exec_tick_statusDone {s t : State} {r : Request} {g : StatusReading} (busy : s.report.busy = some r)
    (reading : s.report.reading = some g) (noPass : s.pass = none) {elapsed : Nat}
    (next : exec (.tick elapsed) (statusDone s) = .next t) (opens : t.pass.isSome = true) :
    exec (.tick elapsed) s = .next t := by
  have done := statusDone_eq busy reading
  have unopened : (statusDone s).pass = none := by rw [done]; exact noPass
  have handed : (statusDone s).port.handed = s.port.handed := by rw [done]
  have cadence : (statusDone s).cadence = s.cadence := by rw [done]
  change execTick elapsed (statusDone s) = _ at next
  by_cases waits : ∀ n ∈ s.port.handed.head?, s.cadence.expiresBefore n.arrival = true
  · rw [execTick_waits (by rw [handed, cadence]; exact waits)] at next
    cases next
    rw [unopened] at opens
    cases opens
  · obtain ⟨n, rest, ticks, first⟩ : ∃ n rest, s.port.handed = n :: rest ∧ s.cadence.expiresBefore n.arrival = false := by
      cases ticks : s.port.handed with
      | nil => exact absurd (fun n mem => by rw [ticks] at mem; cases mem) waits
      | cons n rest =>
        refine ⟨n, rest, rfl, Bool.eq_false_iff.mpr fun before => waits fun m mem => ?_⟩
        rw [ticks] at mem
        cases mem
        exact before
    rw [execTick_takes (handed.trans ticks) (by rw [cadence]; exact first) unopened,
      State.tickReady_statusDone busy reading elapsed rest] at next
    cases next
    rw [State.dispatch_pass] at opens
    refine (execTick_takes ticks first noPass elapsed).trans (congrArg (fun w : State => Host.Outcome.next w.dispatch) ?_)
    exact State.readBefore_statusDone (s := s.tickReady elapsed rest) busy reading (State.readOut_tick_opens _ _ _) opens

theorem exec_expiry_statusDone {s t : State} {r : Request} {g : StatusReading} (busy : s.report.busy = some r)
    (reading : s.report.reading = some g) (noPass : s.pass = none)
    (next : exec .localPeriodTimerExpiry (statusDone s) = .next t) (opens : t.pass.isSome = true) :
    exec .localPeriodTimerExpiry s = .next t := by
  have done := statusDone_eq busy reading
  have unopened : (statusDone s).pass = none := by rw [done]; exact noPass
  have port : (statusDone s).port = s.port := by rw [done]
  have cadence : (statusDone s).cadence = s.cadence := by rw [done]
  change execLocalPeriodTimerExpiry (statusDone s) = _ at next
  by_cases waits : ∀ expiry ∈ s.cadence.timer, s.port.tickBefore expiry = true
  · rw [execLocalPeriodTimerExpiry_waits (by rw [port, cadence]; exact waits)] at next
    cases next
    rw [unopened] at opens
    cases opens
  · obtain ⟨expiry, timer, first⟩ : ∃ expiry, s.cadence.timer = some expiry ∧ s.port.tickBefore expiry = false := by
      push Not at waits
      obtain ⟨expiry, timer, before⟩ := waits
      exact ⟨expiry, timer, Bool.eq_false_iff.mpr before⟩
    rw [execLocalPeriodTimerExpiry_takes ((congrArg Cadence.timer cadence).trans timer) (by rw [port]; exact first) unopened,
      State.expireTimer_statusDone busy reading expiry] at next
    cases next
    rw [State.dispatch_pass] at opens
    refine (execLocalPeriodTimerExpiry_takes timer first noPass).trans
      (congrArg (fun w : State => Host.Outcome.next w.dispatch) ?_)
    exact State.readBefore_statusDone (s := s.expireTimer expiry) busy reading (State.readOut_expiry_opens _) opens

/-! ### The queries -/

/-- R171: the slot records of a QUERY_VOICE result. -/
def slotRecords (s : State) (v : Nat) : List (List Byte) :=
  (List.range ringSlots).map fun j => slotResult s.freeCount (slotIndex v j) (s.slot? v j)

theorem State.voiceResult_eq {s : State} {v : Nat} {x : Voice} {e : SampleEntry} (entry : s.entry? x.handle = some e) :
    s.voiceResult v x = spelled (voiceFields v x e) ++ (slotRecords s v).flatten := by
  rw [State.voiceResult, State.entryOf?, entry, voiceRecordResult_some, slotRecords, List.flatMap_def]

/-- R171: an EMPTY slot has nothing but a chunk and a deadline, which are free values. -/
theorem slotResult_none (n index : Nat) : ∃ chunk deadline : List Byte, chunk.length = 4 ∧ deadline.length = 4 ∧
    slotResult n index none = List.replicate 7 0 ++ chunk ++ deadline ++ List.replicate 4 0 :=
  ⟨_, _, length_toBE _ _, length_toBE _ _, rfl⟩

/-- R172: the parts of a QUERY_STATUS are those of its layout. -/
theorem statusParts_eq : statusParts = statusOrder := rfl

theorem State.finishQueryVoice_answered {s : State} {r : Request} {rest : List Request} (takes : s.Takes r rest) :
    State.finishQueryVoice r (s.beginRequest r) =
      { s.answered r rest (s.voiceAnswer r.body) with freeCount := s.freeCount + 1 } := by
  rw [← takes.beginRequest_reply]
  rfl

theorem State.voiceAnswer_absent {s : State} {b : List Byte}
    (absent : ∀ row ∈ s.voices, row.2.tag ≠ BitVec.ofNat 32 (field b 0 4)) : s.voiceAnswer b = refusal .notFound := by
  rw [State.voiceAnswer, State.findTag?_eq_none absent]

theorem State.voiceAnswer_present {s : State} {b : List Byte} {v : Nat} {x : Voice} (distinct : s.TagsDistinct)
    (voice : s.voice? v = some x) (tag : x.tag = BitVec.ofNat 32 (field b 0 4)) :
    s.voiceAnswer b = okWith (s.voiceResult v x) := by
  rw [State.voiceAnswer, ← tag, State.findTag?_eq_some distinct voice]
  dsimp only
  rw [voice]

/-- Settles O57: each query by what it finds, and the reading of a QUERY_STATUS step by step. -/
theorem queries : Obligations.Queries := by
  refine ⟨fun s r rest takes mark => ?_, fun s r g busy reading => ⟨fun idle => ?_, fun idle left => ?_, fun c t is => ?_⟩⟩
  · intro waits
    refine ⟨fun kind => ?_, fun kind => ?_, fun kind => ?_⟩
    · intro h
      have served : exec .querySample s = .next (s.answered r rest (s.sampleAnswer r.body)) :=
        ((exec_querySample s).trans (takes.serve _ (isRequest_self kind mark))).trans
          (congrArg Host.Outcome.next (takes.beginRequest_reply _))
      have known (small : h ≤ 131071) : s.sampleAnswer r.body = okWith (sampleResult h (s.entry? h)) :=
        if_neg (Nat.not_le.mpr (Nat.lt_succ_iff.mpr small) : ¬ handleCount ≤ handleOf r.body)
      refine ⟨fun beyond => ?_, fun small empty => ?_, fun small e entry => ?_⟩
      · rw [served, State.sampleAnswer]
        exact congrArg (fun a => Host.Outcome.next (s.answered r rest a)) (if_pos beyond)
      · rw [served, known small, empty]
        rfl
      · rw [served, known small, entry, sampleResult_some]
        rfl
    · intro told
      have served := (exec_queryVoice s).trans (takes.serve _ (isRequest_self kind mark))
      refine ⟨fun pass => ?_, fun pass distinct => ?_⟩
      · rw [served, takes.betweenPasses_waits pass]
      rw [State.betweenPasses_finishes pass, State.finishQueryVoice_answered takes] at served
      refine ⟨fun absent => ?_, fun v x e voice tag entry => ⟨slotRecords s v, ?_, ?_, fun j below b mem => ?_⟩⟩
      · rw [served, State.voiceAnswer_absent absent]
        rfl
      · rw [served, State.voiceAnswer_present distinct voice tag, State.voiceResult_eq entry]
        rfl
      · rw [slotRecords, List.length_map, List.length_range]
        rfl
      · rw [slotRecords, List.getElem?_map, List.getElem?_range (show j < ringSlots from below)] at mem
        have is : slotResult s.freeCount (slotIndex v j) (s.slot? v j) = b := Option.some.inj mem
        rw [← is]
        cases s.slot? v j with
        | none => exact slotResult_none _ _
        | some y => exact slotResult_some _ _ y
    · have served := (exec_queryStatus s).trans (takes.serve _ (isRequest_self kind mark))
      refine ⟨fun pass => ?_, fun pass => ⟨Config.statusReadAtOnce s.freeCount, ?_⟩⟩
      · rw [served, takes.betweenPasses_waits pass]
      · rw [served, State.betweenPasses_finishes pass, State.finishQueryStatus, State.readOn_eq, takes.beginRequest]
        rfl
  · exact step_reading busy reading idle
  · exact stepsTo_statusDone busy reading idle left
  · intro noPass next opens
    rcases is with rfl | ⟨elapsed, rfl⟩
    · exact exec_expiry_statusDone busy reading noPass next opens
    · exact exec_tick_statusDone busy reading noPass next opens

end Sys2Proof.Machine
end

section
/-! SUPPORT. One voice of a pass (R122 to R128, R134 to R144), stage by stage: its events, the chunk it passed, its block,
its record and its end. -/

namespace Sys2Proof.Machine

/-! ### The passes -/

theorem firstOf_eq_take {α : Type} (n : Nat) (l : List α) : firstOf n l = l.take n := by
  have from_ (k : Nat) : ((l.zipIdx k).filter fun row => decide (row.2 < k + n)).map (fun row => row.1) = l.take n := by
    induction l generalizing k n with
    | nil => rw [List.take_nil]; rfl
    | cons a l ih =>
      cases n with
      | zero =>
        rw [List.take_zero, List.map_eq_nil_iff, List.filter_eq_nil_iff]
        intro row mem
        have := (List.mem_zipIdx (show (row.1, row.2) ∈ _ from mem)).1
        simpa using this
      | succ n =>
        have later := ih n (k + 1)
        rw [show k + 1 + n = k + (n + 1) by omega] at later
        rw [List.zipIdx_cons, List.filter_cons_of_pos (by simp), List.map_cons, later, List.take_succ_cons]
  have start := from_ 0
  rw [Nat.zero_add] at start
  exact start

theorem State.renderTurn_eq (s : State) (q : PeriodIndex) (v : Nat) : s.renderTurn q v =
    { s.renderRecord q v with pass := (s.renderRecord q v).pass.map fun p => { p with next := v + 1 } } := by
  rw [State.renderTurn, State.passTurn_eq]

theorem takesPart_iff (q : PeriodIndex) (x : Voice) : takesPart q x = true ↔ x.state ≠ .pending ∨ x.startPeriod = q := by
  rw [takesPart, Bool.or_eq_true, bne_iff_ne, beq_iff_eq]

/-- R122: a record that is FREE, or PENDING for a later period, is left. -/
theorem State.renderRecord_left {s : State} {q : PeriodIndex} {v : Nat}
    (left : ∀ x ∈ s.voice? v, x.state = .pending ∧ x.startPeriod ≠ q) : s.renderRecord q v = s := by
  rw [State.renderRecord]
  cases voice : s.voice? v with
  | none => rfl
  | some x =>
    obtain ⟨pending, later⟩ := left x voice
    have out : ¬ takesPart q x = true := fun takes => ((takesPart_iff q x).mp takes).elim (· pending) later
    dsimp only
    cases s.entryOf? x with
    | none => rfl
    | some e => exact if_neg out

/-- R34: the fold matrices with their staged copies applied, and nothing else. -/
theorem State.applyMatrices_table {s : State} (rise : Table.Rising s.library.matrices) :
    ∃ table, s.applyMatrices = { s with library := { s.library with matrices := table } } ∧
      ∀ i, Table.getD table i FoldMatrix.initial =
        if (s.matrix i).pending = true then { s.matrix i with active := (s.matrix i).staged, pending := false }
        else s.matrix i :=
  ⟨s.applyMatrices.library.matrices, rfl, State.applyMatrices_matrix rise⟩

/-! ### The events and the passed chunk -/

/-- R127, R133: the event records after a block's events. -/
def blockTold (s : State) (x : Voice) (q : PeriodIndex) (r : Rendered) (k : EventKind) : EventRecord :=
  if k = .dropout ∧ r.silent ≠ 0 then (s.report.event k).occur (some (.dropout x.tag q r.silent))
  else if k = .clip ∧ r.clipped = true then (s.report.event k).occur (some (.clip x.tag q))
  else s.report.event k

theorem State.raiseBlockEvents_told (s : State) (x : Voice) (q : PeriodIndex) (r : Rendered) (k : EventKind) :
    (s.raiseBlockEvents x q r).report.event k = blockTold s x q r k := by
  have silent : (if r.silent = 0 then s else s.raise (.dropout x.tag q r.silent)).report.event k =
      if k = .dropout ∧ r.silent ≠ 0 then (s.report.event k).occur (some (.dropout x.tag q r.silent))
      else s.report.event k := by
    by_cases none_ : r.silent = 0
    · rw [if_pos none_, if_neg fun both => both.2 none_]
    · rw [if_neg none_]
      refine (s.report.raise_event _ k).trans ?_
      by_cases same : k = .dropout
      · subst same
        exact (if_pos rfl).trans (if_pos ⟨rfl, none_⟩).symm
      · exact (if_neg same).trans (if_neg fun both => same both.1).symm
  unfold State.raiseBlockEvents
  dsimp only
  cases clips : r.clipped with
  | false =>
    rw [if_neg Bool.false_ne_true, silent, blockTold, clips]
    exact if_congr Iff.rfl rfl (if_neg fun both => Bool.false_ne_true both.2).symm
  | true =>
    rw [if_pos rfl]
    refine (Report.raise_event _ _ k).trans ?_
    rw [blockTold, clips]
    by_cases same : k = .clip
    · subst same
      have other : ¬ (EventKind.clip = .dropout ∧ r.silent ≠ 0) := fun both => nomatch both.1
      rw [if_neg other] at silent ⊢
      exact (if_pos rfl).trans ((congrArg (EventRecord.occur · (some (.clip x.tag q))) silent).trans
        (if_pos ⟨rfl, rfl⟩).symm)
    · rw [if_neg fun both : k = .clip ∧ true = true => same both.1]
      exact (if_neg same).trans silent

/-- R80: on two states that agree in the rings, the rings after a passed chunk agree. -/
theorem State.SameRings.passChunk {s t : State} (h : s.SameRings t) (v : Nat) (x : Voice) (k : Nat) :
    (s.passChunk v x k).SameRings (t.passChunk v x k) := by
  unfold State.passChunk
  dsimp only
  rw [h.slot?]
  cases s.slot? v (chunkSlot x k) with
  | none => exact h
  | some slot =>
    dsimp only
    cases slot.state with
    | full => exact h.clearSlot _ _
    | queued => exact (h.clearSlot _ _).unqueueSlot _ _
    | lost =>
      dsimp only
      split
      · exact h.clearSlot _ _
      · exact h.putSlot _ _ _
    | inFlight =>
      dsimp only
      split
      · exact (h.clearSlot _ _).unqueueSlot _ _
      · exact (h.putSlot _ _ _).unqueueSlot _ _
    | draining =>
      dsimp only
      split
      · exact h.putSlot _ _ _
      · exact h

/-- R128: the ring of a voice once its block has passed a chunk, or not. -/
def State.chunkFreed (s : State) (v : Nat) (x : Voice) : State :=
  match passedChunk? s.config.period x with
  | none => s
  | some k => s.passChunk v x k

theorem State.chunkFreed_changes (s : State) (v : Nat) (x : Voice) :
    s.ChangesOnly (s.chunkFreed v x) [.slots, .lanes] := by
  unfold State.chunkFreed
  split
  · exact .refl s _
  · exact (s.passChunk_goes v x _).only

theorem State.SameRings.chunkFreed {s t : State} (h : s.SameRings t) (v : Nat) (x : Voice) :
    (s.chunkFreed v x).SameRings (t.chunkFreed v x) := by
  unfold State.chunkFreed
  rw [h.config]
  split
  · exact h
  · exact h.passChunk _ _ _

theorem State.eq_setPass_self {s : State} {p : Option Pass} (pass : s.pass = p) : s = { s with pass := p } := by
  rw [← pass]

theorem State.passRendered_eq (s : State) (v : Nat) (x : Voice) : s.passRendered v x =
    { s.chunkFreed v x with
      pass := if (passedChunk? s.config.period x).isSome then s.pass.map fun p => { p with passed := p.passed ++ [v] }
              else s.pass } := by
  unfold State.passRendered State.chunkFreed
  cases passedChunk? s.config.period x with
  | none => rfl
  | some k =>
    have kept := (s.passChunk_goes v x k).only.pass (by decide)
    dsimp only
    rw [kept]
    cases pass : s.pass with
    | none =>
      rw [pass] at kept
      rw [Option.map_none, ite_self]
      exact State.eq_setPass_self kept
    | some p => rfl

/-! ### The block in the egress queue (R156, R157, R160) -/

theorem openFrame?_open {q : List DataFrame} {f : DataFrame} (last : q.getLast? = some f) (open_ : f.closed = false) :
    openFrame? q = some f := by
  rw [openFrame?, last]
  exact if_neg (Bool.eq_false_iff.mp open_)

theorem openFrame?_closed {q : List DataFrame} (closed : ∀ f ∈ q.getLast?, f.closed = true) : openFrame? q = none := by
  rw [openFrame?]
  cases last : q.getLast? with
  | none => rfl
  | some f => exact if_pos (closed f last)

theorem State.offer_down {s : State} (down : s.port.linkUp = false) (q : PeriodIndex) (b : Block) : s.offer q b = s :=
  if_neg (Bool.eq_false_iff.mp down)

theorem State.offer_joins {s : State} {f : DataFrame} (up : s.port.linkUp = true)
    (last : s.port.dataQueue.getLast? = some f) (open_ : f.closed = false) (q : PeriodIndex) (b : Block) :
    s.offer q b = s.setPort { s.port with
      dataQueue := s.port.dataQueue.dropLast ++ [dataFrame (blocksPerFrame s.config.period) f.period (f.blocks ++ [b])] } := by
  rw [State.offer, if_pos up, offerBlock, openFrame?_open last open_]

theorem State.offer_begins {s : State} (up : s.port.linkUp = true)
    (closed : ∀ f ∈ s.port.dataQueue.getLast?, f.closed = true) (room : s.port.dataQueue.length < 1024)
    (q : PeriodIndex) (b : Block) : s.offer q b = s.setPort { s.port with
      dataQueue := s.port.dataQueue ++ [dataFrame (blocksPerFrame s.config.period) q [b]] } := by
  have offered : offerBlock (blocksPerFrame s.config.period) q s.port.dataQueue b =
      some (s.port.dataQueue ++ [dataFrame (blocksPerFrame s.config.period) q [b]]) := by
    rw [offerBlock, openFrame?_closed closed]
    exact if_pos room
  rw [State.offer, if_pos up, offered]

theorem State.offer_drops {s : State} (up : s.port.linkUp = true)
    (closed : ∀ f ∈ s.port.dataQueue.getLast?, f.closed = true) (full : 1024 ≤ s.port.dataQueue.length)
    (q : PeriodIndex) (b : Block) :
    s.offer q b = { s with pass := s.pass.map fun p => { p with dropped := p.dropped + 1 } } := by
  have offered : offerBlock (blocksPerFrame s.config.period) q s.port.dataQueue b = none := by
    rw [offerBlock, openFrame?_closed closed]
    exact if_neg (Nat.not_lt.mpr full)
  rw [State.offer, if_pos up, offered, State.countDropped]
  rcases s with ⟨_, _, _, _, _, _, _, _, pass, _, _, _, _, _⟩
  cases pass <;> rfl

theorem State.offer_passed (s : State) (q : PeriodIndex) (b : Block) :
    (s.offer q b).pass.map Pass.passed = s.pass.map Pass.passed := by
  unfold State.offer
  split
  · split
    · rfl
    · unfold State.countDropped
      split
      · rfl
      · rename_i pass
        rw [pass]
        rfl
  · rfl

/-! ### The record -/

/-- R123, R134: a block changes the state, the release point and the ramp of its record, and nothing else. -/
theorem blockRecord_kept (period : Nat) (x : Voice) (e : SampleEntry) : blockRecord period x e =
    { x with state := (blockRecord period x e).state, releasePoint := (blockRecord period x e).releasePoint,
             ramp := (blockRecord period x e).ramp } := by
  have changes : ∃ state releasePoint ramp, blockRecord period x e =
      { x with state := state, releasePoint := releasePoint, ramp := ramp } := by
    rw [blockRecord]
    dsimp only
    generalize (if x.state = .pending then VoiceState.playing else x.state) = begun
    split
    · exact ⟨_, x.releasePoint, x.ramp, rfl⟩
    · split
      · exact ⟨_, _, _, rfl⟩
      · exact ⟨_, x.releasePoint, x.ramp, rfl⟩
  obtain ⟨state, releasePoint, ramp, is⟩ := changes
  rw [is]

theorem passChunk_congr {s : State} {v k : Nat} {x y : Voice} (same : y.headChunks = x.headChunks) :
    s.passChunk v y k = s.passChunk v x k := by
  have slot : chunkSlot y k = chunkSlot x k := by rw [chunkSlot, chunkSlot, same]
  rw [State.passChunk, State.passChunk, slot]

/-- R128: the chunk that a block passes, by the record before it. -/
theorem State.chunkFreed_eq {s : State} {v : Nat} {x y : Voice} (emit : y.emit = x.emit)
    (head : y.headChunks = x.headChunks) : s.chunkFreed v y =
      if x.emit / 1024 < (x.emit + s.config.period) / 1024 ∧
          (x.headChunks : Int) ≤ (x.emit + s.config.period) / 1024 - 1 then
        s.passChunk v x ((x.emit + s.config.period) / 1024 - 1).toNat
      else s := by
  rw [State.chunkFreed, passedChunk?, emit, head]
  by_cases passes : x.emit / 1024 < (x.emit + s.config.period) / 1024 ∧
      (x.headChunks : Int) ≤ (x.emit + s.config.period) / 1024 - 1
  · rw [if_pos passes, if_pos passes]
    exact passChunk_congr head
  · rw [if_neg passes, if_neg passes]

/-- What the turn of a voice leaves before its record is written: its events, the passed chunk and its block. -/
structure State.BlockMade (s w : State) (q : PeriodIndex) (v : Nat) (x y : Voice) (r : Rendered) : Prop where
  changes : s.ChangesOnly w [.report, .slots, .lanes, .port, .pass]
  rings   : (s.chunkFreed v y).SameRings w
  event   : ∀ k, w.report.event k = blockTold s x q r k
  endList : w.report.endList = s.report.endList
  passed  : w.pass.map Pass.passed = (if (passedChunk? s.config.period y).isSome then
    s.pass.map fun p => p.passed ++ [v] else s.pass.map Pass.passed)

/-- R127, R128, R133: the turn of a voice up to its block. -/
def State.blockReady (s : State) (q : PeriodIndex) (v : Nat) (x y : Voice) (r : Rendered) : State :=
  (s.raiseBlockEvents x q r).passRendered v y

theorem State.blockReady_port (s : State) (q : PeriodIndex) (v : Nat) (x y : Voice) (r : Rendered) :
    (s.blockReady q v x y r).port = s.port ∧ (s.blockReady q v x y r).config = s.config :=
  have both := ((s.raiseBlockEvents_goes x q r).only.wider (qs := [.report, .slots, .lanes, .pass]) (by decide)).trans
    ((State.passRendered_goes _ v y).only.wider (by decide))
  ⟨both.port (by decide), both.config (by decide)⟩

theorem State.raiseBlockEvents_endList (s : State) (x : Voice) (q : PeriodIndex) (r : Rendered) :
    (s.raiseBlockEvents x q r).report.endList = s.report.endList := by
  have silent : (if r.silent = 0 then s else s.raise (.dropout x.tag q r.silent)).report.endList = s.report.endList := by
    split
    · rfl
    · exact Report.raise_endList _ _
  unfold State.raiseBlockEvents
  dsimp only
  split
  · exact (Report.raise_endList _ _).trans silent
  · exact silent

theorem State.blockReady_made (s : State) (q : PeriodIndex) (v : Nat) (x y : Voice) (r : Rendered) :
    s.BlockMade (s.blockReady q v x y r) q v x y r := by
  have raised := (s.raiseBlockEvents_goes x q r).only
  have passed := (State.passRendered_goes (s.raiseBlockEvents x q r) v y).only
  have rings : s.SameRings (s.raiseBlockEvents x q r) := raised.sameRings (by decide) (by decide) (by decide)
  refine ⟨(raised.wider (by decide)).trans (passed.wider (by decide)), ?_, fun k => ?_, ?_, ?_⟩
  · rw [State.blockReady, State.passRendered_eq]
    obtain ⟨slots, lanes, config⟩ := rings.chunkFreed v y
    exact ⟨slots, lanes, config⟩
  · rw [State.blockReady, passed.report (by decide)]
    exact s.raiseBlockEvents_told x q r k
  · rw [State.blockReady, passed.report (by decide)]
    exact s.raiseBlockEvents_endList x q r
  · rw [State.blockReady, State.passRendered_eq, raised.config (by decide), raised.pass (by decide)]
    dsimp only
    split
    · rw [Option.map_map]
      rfl
    · rfl

/-- R143: the block is offered where it is sent. -/
def State.blockOffered (s : State) (q : PeriodIndex) (v : Nat) (x y : Voice) (r : Rendered) (sent : Bool) (b : Block) :
    State :=
  if sent then (s.blockReady q v x y r).offer q b else s.blockReady q v x y r

theorem State.blockOffered_made (s : State) (q : PeriodIndex) (v : Nat) (x y : Voice) (r : Rendered) (sent : Bool)
    (b : Block) : s.BlockMade (s.blockOffered q v x y r sent b) q v x y r := by
  have made := s.blockReady_made q v x y r
  cases sent with
  | false => exact made
  | true =>
    have offered := (State.offer_goes (s.blockReady q v x y r) q b).only
    show s.BlockMade ((s.blockReady q v x y r).offer q b) q v x y r
    refine ⟨made.changes.trans (offered.wider (by decide)),
      made.rings.trans (offered.sameRings (by decide) (by decide) (by decide)), fun k => ?_, ?_, ?_⟩
    · rw [offered.report (by decide)]
      exact made.event k
    · rw [offered.report (by decide)]
      exact made.endList
    · rw [State.offer_passed]
      exact made.passed

/-- R122: the turn of a voice that takes part, stage by stage. -/
theorem State.renderRecord_taken {s : State} {q : PeriodIndex} {v : Nat} {x : Voice} {e : SampleEntry}
    (voice : s.voice? v = some x) (entry : s.entry? x.handle = some e) (takes : x.state ≠ .pending ∨ x.startPeriod = q) :
    let y := blockRecord s.config.period x e
    let r := s.renderFrames v y e
    let ending := blockEnding s.config.period y e
    let d := dispose s.config y r ending
    s.renderRecord q v = ((s.blockOffered q v x y r d.sent (blockOf s.config.period x y r ending d)).putVoice v
      (advanceVoice s.config.period y r d)).settleVoice v y ending d := by
  intro y r ending d
  rw [State.renderRecord, voice]
  dsimp only
  rw [State.entryOf?, entry]
  refine (if_pos ((takesPart_iff q x).mpr takes)).trans ?_
  rw [State.renderVoice, enterBlock_eq]
  rfl

/-- What ending the voice of a turn leaves, by the state that the passed chunk leaves. -/
theorem State.EndsAt.ended {s w t : State} {reason : EndReason} {position : Int} {v : Nat} {x z : Voice}
    (h : w.EndsAt t reason position v z) (handle : z.handle = x.handle) (rings : s.SameRings w)
    (changes : s.ChangesOnly w [.report, .slots, .lanes, .port, .pass, .voices])
    (others : ∀ u, u ≠ v → w.voice? u = s.voice? u) : Ended s t v x := by
  obtain ⟨articulations, zones, curves, matrices⟩ :=
    (State.SameTables.of_library (changes.library (by decide))).trans h.tables
  have agree : (s.cancelRing v).SameRings t := (rings.cancelRing v).trans h.rings
  have only := (changes.wider (qs := [.report, .slots, .lanes, .port, .pass, .voices, .library]) (by decide)).trans
    (h.only.wider (by decide))
  refine ⟨h.here, fun u other => (h.others u other).trans (others u other), agree.slots, agree.lanes, fun g => ?_,
    articulations, zones, curves, matrices, only.cadence (by decide), only.config (by decide), only.nextOrder (by decide),
    only.headStore (by decide), only.ringStore (by decide), only.freeCount (by decide)⟩
  refine (h.entries g).trans ?_
  rw [State.entry?_congr (congrArg Library.samples (changes.library (by decide))), handle]

/-! ### The voice rendered -/

theorem passedChunk?_isSome {period : Nat} {x y : Voice} (emit : y.emit = x.emit) (head : y.headChunks = x.headChunks) :
    (passedChunk? period y).isSome = true ↔
      x.emit / 1024 < (x.emit + period) / 1024 ∧ (x.headChunks : Int) ≤ (x.emit + period) / 1024 - 1 := by
  rw [passedChunk?, emit, head]
  split
  · exact iff_of_true rfl ‹_›
  · exact iff_of_false Bool.false_ne_true ‹_›

theorem State.settleVoice_stays {s : State} {d : Disposition} (tail : d.tail = false) (v : Nat) (y : Voice) :
    s.settleVoice v y none d = s := if_neg (Bool.eq_false_iff.mp tail)

/-- R144: the reason and the position of a voice that its block ends. -/
def endingOf (period : Nat) (x : Voice) (ending : Option BlockEnding) : EndReason × Int :=
  match ending with
  | some b => (b.reason, b.position)
  | none => (.quietTail, x.emit + period)

theorem State.settleVoice_ends {s : State} {ending : Option BlockEnding} {d : Disposition}
    (which : ending.isSome = true ∨ d.tail = true) (v : Nat) (y : Voice) :
    s.settleVoice v y ending d =
      s.endVoiceAt v (endingOf s.config.period y ending).1 (endingOf s.config.period y ending).2 := by
  cases ending with
  | some b => rfl
  | none => exact if_pos (which.resolve_left Bool.false_ne_true)

/-- R141, R142: a block that ends its voice is sent. -/
theorem dispose_sent {c : Configuration} {y : Voice} {r : Rendered} {ending : Option BlockEnding}
    (which : ending.isSome = true ∨ (dispose c y r ending).tail = true) : (dispose c y r ending).sent = true :=
  ((dispose_flags c y r ending).sent which).1

theorem State.blockReady_dropped (s : State) (q : PeriodIndex) (v : Nat) (x y : Voice) (r : Rendered) :
    (s.blockReady q v x y r).pass.map Pass.dropped = s.pass.map Pass.dropped := by
  rw [State.blockReady, State.passRendered_eq, (s.raiseBlockEvents_goes x q r).only.pass (by decide)]
  dsimp only
  split
  · rw [Option.map_map]
    rfl
  · rfl

/-- Two states that differ from a third in the same parts differ from each other in no others. -/
theorem State.ChangesOnly.between {s t u : State} {ps : List Part} (h : s.ChangesOnly t ps) (k : s.ChangesOnly u ps) :
    t.ChangesOnly u ps := by
  intro part out
  have before := h part out
  have after := k part out
  cases part <;> exact after.trans before.symm

/-- R156, R157: the port and the count of dropped blocks, by where the block goes. -/
theorem State.blockOffered_port (s : State) (q : PeriodIndex) (v : Nat) (x y : Voice) (r : Rendered) (sent : Bool)
    (b : Block) {t : State} (port : t.port = (s.blockOffered q v x y r sent b).port)
    (pass : t.pass = (s.blockOffered q v x y r sent b).pass) :
    let full (blocks : List Block) : Bool := decide (8946 / (12 + 6 * s.config.period) ≤ blocks.length)
    let queue := s.port.dataQueue
    let kept := t.pass.map Pass.dropped = s.pass.map Pass.dropped
    (sent = false ∨ s.port.linkUp = false → t.port = s.port ∧ kept) ∧
    (sent = true → s.port.linkUp = true →
      (∀ f, queue.getLast? = some f → f.closed = false →
        t.port = { s.port with
                   dataQueue := queue.dropLast ++ [⟨f.period, f.blocks ++ [b], full (f.blocks ++ [b])⟩] } ∧ kept) ∧
      ((∀ f ∈ queue.getLast?, f.closed = true) →
        (queue.length < 1024 → t.port = { s.port with dataQueue := queue ++ [⟨q, [b], full [b]⟩] } ∧ kept) ∧
        (1024 ≤ queue.length →
          t.port = s.port ∧ t.pass.map Pass.dropped = s.pass.map fun p => p.dropped + 1))) := by
  rw [port, pass]
  obtain ⟨port, config⟩ := s.blockReady_port q v x y r
  have dropped := s.blockReady_dropped q v x y r
  have up_ (up : s.port.linkUp = true) : (s.blockReady q v x y r).port.linkUp = true := by rw [port]; exact up
  intro full queue kept
  let t := s.blockOffered q v x y r sent b
  refine ⟨fun none_ => ?_, fun sends up => ⟨fun f last open_ => ?_, fun closed => ⟨fun room => ?_, fun none_ => ?_⟩⟩⟩
  · have same : t = s.blockReady q v x y r := by
      rcases none_ with unsent | down
      · exact if_neg (Bool.eq_false_iff.mp unsent)
      · have offered := State.offer_down (s := s.blockReady q v x y r) (port ▸ down) q b
        show (if sent then _ else _) = _
        rw [offered, ite_self]
    exact ⟨(congrArg State.port same).trans port, (congrArg (fun t : State => t.pass.map Pass.dropped) same).trans dropped⟩
  all_goals
    have same : t = (s.blockReady q v x y r).offer q b := if_pos sends
  · rw [State.offer_joins (up_ up) (f := f) (by rw [port]; exact last) open_, port, config] at same
    exact ⟨congrArg State.port same, (congrArg (fun t : State => t.pass.map Pass.dropped) same).trans dropped⟩
  · rw [State.offer_begins (up_ up) (by rw [port]; exact closed) (by rw [port]; exact room), port, config] at same
    exact ⟨congrArg State.port same, (congrArg (fun t : State => t.pass.map Pass.dropped) same).trans dropped⟩
  · rw [State.offer_drops (up_ up) (by rw [port]; exact closed) (by rw [port]; exact none_)] at same
    refine ⟨(congrArg State.port same).trans port, (congrArg (fun t : State => t.pass.map Pass.dropped) same).trans ?_⟩
    have counted := congrArg (Option.map (· + 1)) dropped
    rw [Option.map_map, Option.map_map] at counted
    rw [Option.map_map]
    exact counted

/-- Settles O45: the opening of a pass, then one voice's turn stage by stage. -/
theorem voiceRendered : Obligations.VoiceRendered := by
  refine ⟨fun s q => ⟨⟨Config.turnsAtOpening s.freeCount, ?_⟩, State.applyMatrices_table,
    fun v left => State.renderRecord_left left⟩, ?_⟩
  · rw [State.beginPass, State.renderTurns, firstOf_eq_take]
    exact congrArg (fun f => List.foldl f s.applyMatrices _) (funext fun r => funext fun v => r.renderTurn_eq q v)
  intro s q v x e voice entry takes y r ending d t next passes freed dropouts clips told
  have kept : y = { x with state := y.state, releasePoint := y.releasePoint, ramp := y.ramp } := blockRecord_kept _ x e
  have emit : y.emit = x.emit := (congrArg Voice.emit kept).trans rfl
  have head : y.headChunks = x.headChunks := (congrArg Voice.headChunks kept).trans rfl
  have freedIs : s.chunkFreed v y = freed := State.chunkFreed_eq emit head
  let b := blockOf s.config.period x y r ending d
  let w := (s.blockOffered q v x y r d.sent b).putVoice v (advanceVoice s.config.period y r d)
  have is : t = w.settleVoice v y ending d := State.renderRecord_taken voice entry takes
  have made := s.blockOffered_made q v x y r d.sent b
  have advanced : advanceVoice s.config.period y r d =
      { x with state := y.state, releasePoint := y.releasePoint, ramp := y.ramp, emit := x.emit + s.config.period,
               quiet := d.quiet, quietCount := d.count, dropouts := dropouts, clips := clips } := by
    have all (z : Voice) (same : z = { x with state := y.state, releasePoint := y.releasePoint, ramp := y.ramp }) :
        advanceVoice s.config.period z r d = { x with
          state := y.state, releasePoint := y.releasePoint, ramp := y.ramp, emit := x.emit + s.config.period,
          quiet := d.quiet, quietCount := d.count, dropouts := dropouts, clips := clips } := by
      rw [same]
      rfl
    exact all y kept
  have here : w.voice? v = some (advanceVoice s.config.period y r d) := by rw [State.putVoice_voice?, if_pos rfl]
  have others (u : Nat) (other : u ≠ v) : w.voice? u = s.voice? u := by
    rw [State.putVoice_voice?, if_neg other, State.voice?, made.changes.voices (by decide)]
    rfl
  have changes : s.ChangesOnly w [.report, .slots, .lanes, .port, .pass, .voices] :=
    (made.changes.wider (by decide)).trans ((State.setVoices_changes _ _).wider (by decide))
  obtain ⟨settled, tables, others'⟩ : w.ChangesOnly t [.report, .library, .voices, .slots, .lanes] ∧ w.SameTables t ∧
      ∀ u, u ≠ v → t.voice? u = w.voice? u := by
    rw [is]
    by_cases which : ending.isSome = true ∨ d.tail = true
    · rw [State.settleVoice_ends which]
      have ends := State.endVoiceAt_ends here (endingOf w.config.period y ending).1 (endingOf w.config.period y ending).2
      exact ⟨ends.only, ends.tables, ends.others⟩
    · rw [not_or, Option.not_isSome_iff_eq_none, Bool.not_eq_true] at which
      rw [which.1, State.settleVoice_stays which.2]
      exact ⟨.refl w _, .refl w, fun _ _ => rfl⟩
  have whole := (changes.wider (qs := [.report, .slots, .lanes, .port, .pass, .voices, .library]) (by decide)).trans
    (settled.wider (by decide))
  obtain ⟨articulations, zones, curves, matrices⟩ :=
    (State.SameTables.of_library (changes.library (by decide))).trans tables
  refine ⟨fun u other => (others' u other).trans (others u other), fun noEnding noTail => ?_, fun which => ?_, ?_,
    articulations, zones, curves, matrices, whole.cadence (by decide), whole.config (by decide),
    whole.nextOrder (by decide), whole.headStore (by decide), whole.ringStore (by decide)⟩
  · have same : t = w := by rw [is, noEnding, State.settleVoice_stays noTail]
    rw [same]
    refine ⟨here.trans (congrArg some advanced), ?_, ?_, changes.library (by decide), fun p under => ?_, made.event,
      made.endList⟩
    · rw [← freedIs]
      exact made.rings.slots
    · rw [← freedIs]
      exact made.rings.lanes
    · refine made.passed.trans ?_
      rw [show s.pass = some p from under]
      by_cases passed : passes
      · rw [if_pos ((passedChunk?_isSome emit head).mpr passed), if_pos passed]
        rfl
      · rw [if_neg (mt (passedChunk?_isSome emit head).mp passed), if_neg passed]
        rfl
  · have ends := State.endVoiceAt_ends here (endingOf w.config.period y ending).1 (endingOf w.config.period y ending).2
    rw [← State.settleVoice_ends which, ← is] at ends
    have handle : (advanceVoice s.config.period y r d).handle = x.handle :=
      (congrArg Voice.handle advanced).trans rfl
    refine ⟨dispose_sent which, ?_, w.report, made.event, made.endList, ?_⟩
    · rw [← freedIs]
      have freedOnly := s.chunkFreed_changes v y
      refine ends.ended handle ⟨made.rings.slots, made.rings.lanes, made.rings.config⟩
        ((freedOnly.wider (by decide)).between changes) fun u other => ?_
      rw [others u other, State.voice?, State.voice?, freedOnly.voices (by decide)]
    · rw [ends.report, advanced]
      show w.report.appendEnd _ = w.report.appendEnd _
      refine congrArg w.report.appendEnd ?_
      cases which' : ending with
      | none =>
        have position : y.emit + (w.config.period : Int) = x.emit + s.config.period := by
          rw [emit, changes.config (by decide)]
        exact congrArg (EndRecord.mk x.tag .quietTail · dropouts clips) (congrArg framesRendered position)
      | some b => rfl
  · have port : t.port = (s.blockOffered q v x y r d.sent b).port := settled.port (by decide)
    have pass : t.pass = (s.blockOffered q v x y r d.sent b).pass := settled.pass (by decide)
    exact s.blockOffered_port q v x y r d.sent b port pass

end Sys2Proof.Machine
end

section
/-! SUPPORT. The completion of a pass (R76, R105, R106, R116, R145, R156, R158): its reports and refills in their four
orders, and what comes ahead of the waiting list. -/

namespace Sys2Proof.Machine

/-! ### What does not read the reports -/

/-- R89: what the lanes send does not depend on the reports. -/
theorem State.setReport_dispatchStream (s : State) (q : Report) (l : LaneId) (number : Nat) (n : QueueEntry)
    (rest : List QueueEntry) :
    (s.setReport q).dispatchStream l number n rest = (s.dispatchStream l number n rest).setReport q := by
  rw [State.dispatchStream, State.dispatchStream,
    show (s.setReport q).slot? n.voice n.slot = s.slot? n.voice n.slot from rfl]
  cases s.slot? n.voice n.slot <;> rfl

theorem State.setReport_dispatchPriming? (s : State) (q : Report) (l : LaneId) (number : Nat) :
    (s.setReport q).dispatchPriming? l number = (s.dispatchPriming? l number).map (·.setReport q) := by
  rw [State.dispatchPriming?, State.dispatchPriming?, show (s.setReport q).lane l = s.lane l from rfl]
  by_cases full : primingLimit ≤ (s.lane l).primingOutstanding
  · rw [if_pos full, if_pos full]
    rfl
  rw [if_neg full, if_neg full]
  cases (s.lane l).primingList with
  | nil => rfl
  | cons h more =>
    cases lowestUnread (s.lane l).segments with
    | none => rfl
    | some j =>
      dsimp only
      rw [show (s.setReport q).entry? h = s.entry? h from rfl]
      cases s.entry? h with
      | none => rfl
      | some e => cases (s.lane l).segments[j]? <;> rfl

theorem State.setReport_dispatchOne? (s : State) (q : Report) (l : LaneId) :
    (s.setReport q).dispatchOne? l = (s.dispatchOne? l).map (·.setReport q) := by
  rw [State.dispatchOne?, State.dispatchOne?, show (s.setReport q).lane l = s.lane l from rfl]
  by_cases stuck : (s.lane l).state = .offline ∨ readNumbers ≤ (s.lane l).readsOutstanding
  · rw [if_pos stuck, if_pos stuck]
    rfl
  rw [if_neg stuck, if_neg stuck]
  cases (s.lane l).freeNumber? with
  | none => rfl
  | some number =>
    cases (s.lane l).queue with
    | nil => exact s.setReport_dispatchPriming? q l number
    | cons n rest => exact congrArg some (s.setReport_dispatchStream q l number n rest)

theorem State.setReport_dispatchLane (l : LaneId) (n : Nat) (s : State) (q : Report) :
    State.dispatchLane l n (s.setReport q) = (State.dispatchLane l n s).setReport q := by
  induction n generalizing s with
  | zero => rfl
  | succ n ih =>
    rw [State.dispatchLane, State.dispatchLane, State.setReport_dispatchOne?]
    cases s.dispatchOne? l with
    | none => rfl
    | some t => exact ih t

theorem State.setReport_dispatch (s : State) (q : Report) : (s.setReport q).dispatch = s.dispatch.setReport q := by
  simp only [State.dispatch, State.setReport_dispatchLane]

/-- A step does the same to states that differ in their reports alone, and raises FETCH_LOST, if anything. -/
def TellsLost (f : State → State) : Prop :=
  ∀ s : State, ∃ cs : List Capture, (∀ c ∈ cs, c.kind = .fetchLost) ∧
    ∀ q : Report, f (s.setReport q) = (f s).setReport (cs.foldl Report.raise q)

theorem TellsLost.silent {f : State → State} (same : ∀ (s : State) (q : Report), f (s.setReport q) = (f s).setReport q) :
    TellsLost f := fun s => ⟨[], fun _ mem => (List.not_mem_nil mem).elim, same s⟩

theorem TellsLost.foldl {α : Type} {f : State → α → State} (step : ∀ a, TellsLost fun s => f s a) (l : List α) :
    TellsLost fun s => l.foldl f s := by
  induction l with
  | nil => exact .silent fun _ _ => rfl
  | cons a l ih =>
    intro s
    obtain ⟨cs, kinds, first⟩ := step a s
    obtain ⟨ds, kinds', rest⟩ := ih (f s a)
    refine ⟨cs ++ ds, fun c mem => (List.mem_append.mp mem).elim (kinds c) (kinds' c), fun q => ?_⟩
    rw [List.foldl_append]
    exact (congrArg (fun t => l.foldl f t) (first q)).trans (rest _)

/-- R70, R73, R82. -/
theorem State.setUpChunk_tells (v j : Nat) (x : Voice) (e : SampleEntry) (k : Nat) :
    TellsLost fun s => s.setUpChunk v j x e k := by
  intro s
  by_cases offline : (s.lane e.lane).state = .offline
  · refine ⟨[.fetchLost x.tag e.lane k], fun c mem => by rw [List.mem_singleton.mp mem]; rfl, fun q => ?_⟩
    dsimp only
    rw [State.setUpChunk_eq, State.setUpChunk_eq, chunkTaken, chunkTaken]
    refine (if_pos offline).trans ?_
    rw [if_pos offline]
    rfl
  · refine ⟨[], fun c mem => (List.not_mem_nil mem).elim, fun q => ?_⟩
    dsimp only
    rw [State.setUpChunk_eq, State.setUpChunk_eq, chunkTaken, chunkTaken]
    refine (if_neg offline).trans ?_
    rw [if_neg offline]
    rfl

theorem State.requestChunk_tells (v : Nat) (x : Voice) (e : SampleEntry) (k : Nat) :
    TellsLost fun s => s.requestChunk v x e k := by
  intro s
  have slot (q : Report) : (s.setReport q).slot? v (chunkSlot x k) = s.slot? v (chunkSlot x k) := rfl
  cases held : s.slot? v (chunkSlot x k) with
  | none =>
    obtain ⟨cs, kinds, tells⟩ := State.setUpChunk_tells v (chunkSlot x k) x e k s
    refine ⟨cs, kinds, fun q => ?_⟩
    dsimp only
    rw [State.requestChunk, State.requestChunk, slot, held]
    exact tells q
  | some y =>
    refine ⟨[], fun c mem => (List.not_mem_nil mem).elim, fun q => ?_⟩
    dsimp only
    rw [State.requestChunk, State.requestChunk, slot, held]
    dsimp only
    split <;> rfl

/-- R76: the refill check of one voice. -/
theorem State.refillVoice_tells (v : Nat) : TellsLost fun s => s.refillVoice v := by
  intro s
  by_cases found : ∃ x e, s.voice? v = some x ∧ s.entry? x.handle = some e ∧
      ((s.committedChunks v).filter (windowChunks x).contains).length ≤ s.config.lowWater
  · obtain ⟨x, e, voice, entry, low⟩ := found
    obtain ⟨cs, kinds, tells⟩ := TellsLost.foldl (fun k => State.requestChunk_tells v x e k) (refillChunks s v x e) s
    refine ⟨cs, kinds, fun q => ?_⟩
    dsimp only
    rw [State.refillVoice_eq (s := s.setReport q) voice entry, State.refillVoice_eq voice entry, if_pos low]
    exact (if_pos low).trans (tells q)
  · have idle (q : Report) : (s.setReport q).refillVoice v = s.setReport q := by
      cases voice : s.voice? v with
      | none => rw [State.refillVoice, show (s.setReport q).voice? v = none from voice]
      | some x =>
        cases entry : s.entry? x.handle with
        | none =>
          rw [State.refillVoice, show (s.setReport q).voice? v = some x from voice]
          dsimp only
          rw [State.entryOf?, show (s.setReport q).entry? x.handle = none from entry]
        | some e =>
          rw [State.refillVoice_eq (s := s.setReport q) voice entry]
          exact if_neg fun low => found ⟨x, e, voice, entry, low⟩
    have here : s.refillVoice v = s := idle s.report
    refine ⟨[], fun c mem => (List.not_mem_nil mem).elim, fun q => ?_⟩
    dsimp only
    rw [idle q, here]
    rfl

/-! ### The turns that are left -/

/-- What the turn of record `v` leaves of the other records. -/
structure State.TurnLeaves (s t : State) (v : Nat) : Prop where
  rising : Table.Rising t.voices
  others : ∀ w, w ≠ v → t.voice? w = s.voice? w
  handed : t.port.handed = s.port.handed

theorem State.offer_handed (s : State) (q : PeriodIndex) (b : Block) : (s.offer q b).port.handed = s.port.handed := by
  unfold State.offer
  split
  · split
    · rfl
    · rw [s.countDropped_goes.only.port (by decide)]
  · rfl

theorem State.renderRecord_leaves {s : State} (rising : Table.Rising s.voices) (q : PeriodIndex) (v : Nat) :
    s.TurnLeaves (s.renderRecord q v) v := by
  by_cases left : ∀ x ∈ s.voice? v, ∀ e ∈ s.entry? x.handle, x.state = .pending ∧ x.startPeriod ≠ q
  · have same : s.renderRecord q v = s := by
      cases voice : s.voice? v with
      | none => rw [State.renderRecord, voice]
      | some x =>
        cases entry : s.entry? x.handle with
        | none =>
          rw [State.renderRecord, voice]
          dsimp only
          rw [State.entryOf?, entry]
        | some e =>
          refine State.renderRecord_left fun y is => ?_
          rw [voice] at is
          cases is
          exact left x voice e entry
    rw [same]
    exact ⟨rising, fun _ _ => rfl, rfl⟩
  · push Not at left
    obtain ⟨x, voice, e, entry, takes⟩ := left
    have taken := State.renderRecord_taken voice entry (or_iff_not_imp_left.mpr fun pending => takes (not_not.mp pending))
    dsimp only at taken
    rw [taken]
    generalize dispose s.config _ _ _ = d
    generalize blockOf _ _ _ _ _ d = b
    generalize blockEnding _ _ e = ending
    generalize s.renderFrames v _ e = r
    generalize blockRecord _ x e = y
    generalize advanceVoice _ y r d = z
    have made := s.blockOffered_made q v x y r d.sent b
    have handed : (s.blockOffered q v x y r d.sent b).port.handed = s.port.handed := by
      have ready := congrArg Port.handed (s.blockReady_port q v x y r).1
      rw [State.blockOffered]
      split
      · exact (State.offer_handed _ _ _).trans ready
      · exact ready
    have voices : (s.blockOffered q v x y r d.sent b).voices = s.voices := made.changes.voices (by decide)
    generalize s.blockOffered q v x y r d.sent b = w at handed voices
    have rises : Table.Rising (w.putVoice v z).voices := Table.rising_insert (voices ▸ rising) v z
    have others (u : Nat) (other : u ≠ v) : (w.putVoice v z).voice? u = s.voice? u := by
      rw [State.putVoice_voice?, if_neg other, State.voice?, voices]
      rfl
    have ends (reason : EndReason) (position : Int) : s.TurnLeaves ((w.putVoice v z).endVoiceAt v reason position) v := by
      have here : (w.putVoice v z).voice? v = some z := by rw [State.putVoice_voice?, if_pos rfl]
      have ends := State.endVoiceAt_ends here reason position
      refine ⟨?_, fun u other => (ends.others u other).trans (others u other), ?_⟩
      · rw [State.endVoiceAt_eq here]
        refine Table.rising_erase ?_ v
        rw [(State.cancelRing_changes _ v).voices (by decide), (State.uncountVoice_changes _ _).voices (by decide)]
        exact rises
      · exact (congrArg Port.handed (ends.only.port (by decide))).trans handed
    cases ending with
    | some b => exact ends _ _
    | none =>
      rw [State.settleVoice]
      split
      · exact ends _ _
      · exact ⟨rises, others, handed⟩

theorem Table.keys_above_eq {α : Type} {t u : Table α} {n : Nat} (rising : Table.Rising t) (rises : Table.Rising u)
    (same : ∀ k, n ≤ k → Table.get? u k = Table.get? t k) :
    ((Table.keys u).filter fun k => decide (n ≤ k)) = (Table.keys t).filter fun k => decide (n ≤ k) := by
  have sorted {x : Table α} (r : Table.Rising x) : ((Table.keys x).filter fun k => decide (n ≤ k)).Pairwise (· < ·) :=
    (List.pairwise_map.mpr r).filter _
  refine (sorted rises).eq_of_mem_iff (sorted rising) fun k => ?_
  have listed {x : Table α} (r : Table.Rising x) : k ∈ Table.keys x ↔ (Table.get? x k).isSome = true := by
    rw [Table.mem_keys, Option.isSome_iff_exists]
    exact exists_congr fun a => ⟨Table.get?_of_mem r, Table.mem_of_get?⟩
  rw [List.mem_filter, List.mem_filter, listed rises, listed rising, decide_eq_true_eq]
  exact and_congr_left fun above => by rw [same k above]

/-- R122: after a turn the turns left are those that were left behind it. -/
theorem Table.keys_filter_tail {α : Type} {t : Table α} (rising : Table.Rising t) {n v : Nat} {rest : List Nat}
    (head : ((Table.keys t).filter fun k => decide (n ≤ k)) = v :: rest) :
    ((Table.keys t).filter fun k => decide (v + 1 ≤ k)) = rest := by
  have sorted : ((Table.keys t).filter fun k => decide (n ≤ k)).Pairwise (· < ·) := (List.pairwise_map.mpr rising).filter _
  have due : n ≤ v := by
    have mem : v ∈ (Table.keys t).filter fun k => decide (n ≤ k) := by rw [head]; exact List.mem_cons_self
    simpa using (List.mem_filter.mp mem).2
  rw [head] at sorted
  have above := (List.pairwise_cons.mp sorted).1
  calc (Table.keys t).filter (fun k => decide (v + 1 ≤ k))
      = ((Table.keys t).filter fun k => decide (n ≤ k)).filter fun k => decide (v + 1 ≤ k) := by
        rw [List.filter_filter]
        refine List.filter_congr fun k _ => ?_
        rw [← Bool.decide_and, decide_eq_decide]
        omega
    _ = rest := by
        rw [head, List.filter_cons_of_neg (by simp), List.filter_eq_self]
        exact fun k mem => by simpa using above k mem

theorem Cadence.later_zero (c : Cadence) : c.later 0 = c.clock := by
  unfold Cadence.later
  split
  · rfl
  · omega

theorem State.passTime_zero (s : State) : s.passTime 0 = s := by
  rw [State.passTime, Cadence.later_zero]
  rfl

theorem exec_passComplete_waits {s : State} (none_ : s.pass = none ∨ s.port.handed ≠ []) (elapsed : Nat) :
    exec (.passComplete elapsed) s = .next s := by
  show execPassComplete elapsed s = _
  rw [execPassComplete]
  cases pass : s.pass with
  | none => rfl
  | some p =>
    have handed := none_.resolve_left fun is => by rw [pass] at is; cases is
    exact if_neg fun empty => handed (List.isEmpty_iff.mp empty)

theorem exec_passComplete_takes {s : State} {p : Pass} (pass : s.pass = some p) (handed : s.port.handed = [])
    (elapsed : Nat) : exec (.passComplete elapsed) s = .next ((s.passTime elapsed).renderRest p).finishPass := by
  show execPassComplete elapsed s = _
  rw [execPassComplete, pass]
  exact if_pos (List.isEmpty_iff.mpr handed)

/-- R122: the first turn that is left is had first. -/
theorem exec_passComplete_turn {s : State} {p : Pass} {v : Nat} (pass : s.pass = some p) (handed : s.port.handed = [])
    (rising : Table.Rising s.voices) (listed : (s.voice? v).isSome = true) (due : p.next ≤ v)
    (lower : ∀ w, p.next ≤ w → w < v → s.voice? w = none) (elapsed : Nat) :
    exec (.passComplete elapsed) s = exec (.passComplete 0) ((s.passTime elapsed).renderTurn p.period v) := by
  obtain ⟨rest, turns⟩ := Table.keys_filter_head rising listed due lower
  have first : (s.passTime elapsed).renderRest p =
      ((s.passTime elapsed).renderTurn p.period v).renderTurns p.period rest := by
    rw [State.renderRest, State.turnsLeft]
    exact congrArg ((s.passTime elapsed).renderTurns p.period) turns
  have leaves := State.renderRecord_leaves (s := s.passTime elapsed) rising p.period v
  have turn := (s.passTime elapsed).renderTurn_eq p.period v
  obtain ⟨o, under⟩ := Option.isSome_iff_exists.mp (((s.passTime elapsed).renderTurn_passUnderWay p.period v).trans
    (show (s.passTime elapsed).passUnderWay = true from Option.isSome_iff_exists.mpr ⟨p, pass⟩))
  obtain ⟨p', is, period⟩ := ((s.passTime elapsed).renderTurn_samePeriod p.period v).period o under
  have same : p' = p := Option.some.inj (is.symm.trans pass)
  have next : o.next = v + 1 := by
    have was := under
    rw [turn] at was
    obtain ⟨q, _, rfl⟩ := Option.map_eq_some_iff.mp was
    rfl
  generalize (s.passTime elapsed).renderTurn p.period v = w at *
  have left : w.turnsLeft o = rest := by
    rw [State.turnsLeft, next, turn]
    refine (Table.keys_above_eq rising leaves.rising fun u above => ?_).trans (Table.keys_filter_tail rising turns)
    exact leaves.others u (Nat.ne_of_gt above)
  rw [exec_passComplete_takes pass handed, first,
    exec_passComplete_takes under (by rw [turn]; exact leaves.handed.trans handed), State.passTime_zero, State.renderRest,
    left, ← period, same]

/-! ### The completion -/

theorem closeOpenFrame_eq (q : List DataFrame) : closeOpenFrame q =
    q.dropLast ++ q.getLast?.toList.map fun f => { f with closed := true } := by
  unfold closeOpenFrame
  split
  case h_1 none_ => rw [List.getLast?_eq_none_iff.mp none_]; rfl
  case h_2 f last => rw [last]; rfl

/-- R145: EGRESS_OVERRUN where blocks were dropped in the pass. -/
def overrunTold (p : Pass) (q : Report) : Report :=
  if p.dropped = 0 then q else q.raise (.egressOverrun p.period p.dropped)

theorem State.reportOverrun_eq (s : State) (p : Pass) : s.reportOverrun p = s.setReport (overrunTold p s.report) := by
  rw [State.reportOverrun, overrunTold]
  split <;> rfl

/-- R106, R145: the completion makes its reports and refills in one of the four orders. -/
theorem State.completePass_mem (s : State) (p : Pass) (elapsed : Nat) :
    (s.passTime elapsed).completePass p ∈ completions s p elapsed := by
  have closed : (((s.passTime elapsed).setPort { s.port with dataQueue := closeOpenFrame s.port.dataQueue }).setPass
      none).setCadence { (s.passTime elapsed).cadence with horizon := some (p.period + 1) } = passClosed s p elapsed := by
    rw [closeOpenFrame_eq]
    rfl
  have is : (s.passTime elapsed).completePass p =
      { ((passClosed s p elapsed).completionReports p).dispatch with freeCount := s.freeCount + 1 } := by
    rw [← closed]
    rfl
  rw [is]
  refine List.mem_map.mpr ⟨_, ?_, rfl⟩
  rw [State.completionReports]
  dsimp only
  simp only [State.reportOverrun_eq]
  cases Config.overrunBeforeFlush (passClosed s p elapsed).freeCount <;>
    cases Config.refillBeforeFlush (passClosed s p elapsed).freeCount
  · exact .tail _ (.tail _ (.tail _ (.head _)))
  · exact .tail _ (.tail _ (.head _))
  · exact .tail _ (.head _)
  · exact .head _

/-! ### The reports of a completion -/

theorem overrunTold_event (p : Pass) (q : Report) (k : EventKind) : (overrunTold p q).event k =
    if k = .egressOverrun ∧ p.dropped ≠ 0 then (q.event k).occur (some (.egressOverrun p.period p.dropped))
    else q.event k := by
  rw [overrunTold]
  by_cases dropped : p.dropped = 0
  · rw [if_pos dropped, if_neg fun both => both.2 dropped]
  · rw [if_neg dropped]
    by_cases same : k = .egressOverrun
    · subst same
      exact (q.raise_event_same _).trans (if_pos ⟨rfl, dropped⟩).symm
    · rw [q.raise_event_other same, if_neg fun both => same both.1]

theorem foldl_lost_event {cs : List Capture} (lost : ∀ c ∈ cs, c.kind = .fetchLost) {k : EventKind} (other : k ≠ .fetchLost)
    (q : Report) : (cs.foldl Report.raise q).event k = q.event k := by
  induction cs generalizing q with
  | nil => rfl
  | cons c cs ih =>
    rw [List.foldl_cons, ih fun d mem => lost d (.tail _ mem)]
    exact q.raise_event_other fun is => other (is.trans (lost c (.head _)))

theorem Report.foldl_raise_event_congr (cs : List Capture) {k : EventKind} {q r : Report} (same : q.event k = r.event k) :
    (cs.foldl Report.raise q).event k = (cs.foldl Report.raise r).event k := by
  induction cs generalizing q r with
  | nil => exact same
  | cons c cs ih =>
    refine ih ?_
    rw [Report.raise_event, Report.raise_event]
    by_cases raised : k = c.kind
    · rw [if_pos raised, if_pos raised, ← raised, same]
    · rw [if_neg raised, if_neg raised, same]

theorem Report.foldl_raise_busy (cs : List Capture) (q : Report) : (cs.foldl Report.raise q).busy = q.busy := by
  induction cs generalizing q with
  | nil => rfl
  | cons c cs ih => exact (ih _).trans (q.raise_busy c)

theorem overrunTold_busy (p : Pass) (q : Report) : (overrunTold p q).busy = q.busy := by
  rw [overrunTold]
  split
  · rfl
  · exact q.raise_busy _

/-- R76, R145, R158: what the reports of a completion are, in each of the four orders. -/
theorem overrun_refill_flush (p : Pass) (q : Report) {cs : List Capture} (lost : ∀ c ∈ cs, c.kind = .fetchLost) {t : Report}
    (order : t ∈ [((overrunTold p q |> cs.foldl Report.raise).flushAll 16),
      cs.foldl Report.raise ((overrunTold p q).flushAll 16),
      overrunTold p ((cs.foldl Report.raise q).flushAll 16),
      cs.foldl Report.raise (overrunTold p (q.flushAll 16))]) :
    t.busy = q.busy ∧ ∀ k, t.event k =
      if k = .egressOverrun ∧ p.dropped ≠ 0 then (q.event k).occur (some (.egressOverrun p.period p.dropped))
      else (cs.foldl Report.raise q).event k := by
  have flushed (r : Report) (k : EventKind) : (r.flushAll 16).event k = r.event k := Report.event_congr (r.flushAll_events 16) k
  have told {r : Report} {k : EventKind} (other : k ≠ .egressOverrun) : (overrunTold p r).event k = r.event k := by
    rw [overrunTold_event, if_neg fun both => other both.1]
  have still (r : Report) : (cs.foldl Report.raise r).event .egressOverrun = r.event .egressOverrun :=
    foldl_lost_event lost (by decide) r
  have spelled (k : EventKind) (same : k = .egressOverrun → t.event k = (overrunTold p q).event k)
      (others : k ≠ .egressOverrun → t.event k = (cs.foldl Report.raise q).event k) : t.event k =
      if k = .egressOverrun ∧ p.dropped ≠ 0 then (q.event k).occur (some (.egressOverrun p.period p.dropped))
      else (cs.foldl Report.raise q).event k := by
    by_cases is : k = .egressOverrun
    · rw [same is, overrunTold_event, is, still]
    · rw [others is, if_neg fun both => is both.1]
  have flushes (r r' : Report) (k : EventKind) (same : r.event k = r'.event k) :
      (overrunTold p r).event k = (overrunTold p r').event k := by
    rw [overrunTold_event, overrunTold_event, same]
  simp only [List.mem_cons, List.not_mem_nil, or_false] at order
  rcases order with rfl | rfl | rfl | rfl
  · refine ⟨?_, fun k => spelled k (fun is => ?_) fun other => ?_⟩
    · rw [Report.flushAll_busy, Report.foldl_raise_busy, overrunTold_busy]
    · rw [flushed, is, still]
    · rw [flushed]
      exact Report.foldl_raise_event_congr cs (told other)
  · refine ⟨?_, fun k => spelled k (fun is => ?_) fun other => ?_⟩
    · rw [Report.foldl_raise_busy, Report.flushAll_busy, overrunTold_busy]
    · rw [is, still, flushed]
    · exact Report.foldl_raise_event_congr cs ((flushed _ _).trans (told other))
  · refine ⟨?_, fun k => spelled k (fun is => ?_) fun other => ?_⟩
    · rw [overrunTold_busy, Report.flushAll_busy, Report.foldl_raise_busy]
    · refine flushes _ _ _ ((flushed _ _).trans ?_)
      rw [is, still]
    · rw [told other, flushed]
  · refine ⟨?_, fun k => spelled k (fun is => ?_) fun other => ?_⟩
    · rw [Report.foldl_raise_busy, overrunTold_busy, Report.flushAll_busy]
    · rw [is, still]
      exact flushes _ _ _ (flushed _ _)
    · exact Report.foldl_raise_event_congr cs ((told other).trans (flushed _ _))

/-- What a completion leaves before the limit, the request and the waiting list are taken: its rings are those of the
refills, and its reports one of the four orders. -/
structure State.PassCompletes (s u : State) (p : Pass) (elapsed : Nat) (refilled : State) : Prop where
  is     : u = { refilled.dispatch with report := u.report, freeCount := s.freeCount + 1 }
  busy   : u.report.busy = s.report.busy
  event  : ∀ k, u.report.event k = if k = .egressOverrun ∧ p.dropped ≠ 0 then
    (s.report.event k).occur (some (.egressOverrun p.period p.dropped)) else refilled.report.event k
  plain  : p.dropped = 0 → p.passed = [] → u.report = s.report.flushAll 16

theorem State.setReport_used (d : State) (t : Report) (n : Nat) :
    { d.setReport t with freeCount := n } = { d with report := t, freeCount := n } := rfl

theorem completions_complete {s u : State} {p : Pass} {elapsed : Nat} (mem : u ∈ completions s p elapsed) :
    s.PassCompletes u p elapsed (p.passed.foldl State.refillVoice (passClosed s p elapsed)) := by
  obtain ⟨cs, lost, tells⟩ := TellsLost.foldl State.refillVoice_tells p.passed (passClosed s p elapsed)
  have refilled : (p.passed.foldl State.refillVoice (passClosed s p elapsed)).report = cs.foldl Report.raise s.report :=
    congrArg State.report (tells s.report)
  obtain ⟨r, order, rfl⟩ := List.mem_map.mp mem
  obtain ⟨t, is, told⟩ : ∃ t, r = (p.passed.foldl State.refillVoice (passClosed s p elapsed)).setReport t ∧
      t ∈ [((overrunTold p s.report |> cs.foldl Report.raise).flushAll 16),
        cs.foldl Report.raise ((overrunTold p s.report).flushAll 16),
        overrunTold p ((cs.foldl Report.raise s.report).flushAll 16),
        cs.foldl Report.raise (overrunTold p (s.report.flushAll 16))] := by
    simp only [List.mem_cons, List.not_mem_nil, or_false] at order
    rcases order with rfl | rfl | rfl | rfl
    · have flushed := congrArg (fun x : State => x.setReport (x.report.flushAll 16)) (tells (overrunTold p s.report))
      exact ⟨_, flushed, .head _⟩
    · exact ⟨_, tells ((overrunTold p s.report).flushAll 16), .tail _ (.head _)⟩
    · refine ⟨_, ?_, .tail _ (.tail _ (.head _))⟩
      rw [← refilled]
      rfl
    · exact ⟨_, tells (overrunTold p (s.report.flushAll 16)), .tail _ (.tail _ (.tail _ (.head _)))⟩
  obtain ⟨busy, event⟩ := overrun_refill_flush p s.report lost told
  subst is
  dsimp only
  rw [State.setReport_dispatch]
  refine ⟨State.setReport_used _ t _, busy, fun k => ?_, fun dropped passed => ?_⟩
  · rw [refilled]
    exact event k
  · have quiet (q : Report) : overrunTold p q = q := if_pos dropped
    have none_ (q : Report) : cs.foldl Report.raise q = q := by
      have same := congrArg State.report (tells q)
      dsimp only at same
      rw [passed] at same
      exact same.symm
    simp only [quiet, none_, List.mem_cons, List.not_mem_nil, or_false, or_self] at told
    exact told

/-! ### The waiting list (R105) -/

/-- No item joins the waiting list. -/
def State.NoneJoins (s t : State) : Prop := t.cadence.waiting.length ≤ s.cadence.waiting.length

namespace State.NoneJoins

theorem of_eq {s t : State} (same : t.cadence.waiting = s.cadence.waiting) : s.NoneJoins t := (congrArg List.length same).le

theorem of_drop {s t : State} (drop : t.cadence.waiting = dropExpiry s.cadence.waiting) : s.NoneJoins t :=
  (congrArg List.length drop).trans_le (List.length_filter_le _ _)

theorem refl (s : State) : s.NoneJoins s := of_eq rfl

theorem trans {s t u : State} (h : s.NoneJoins t) (k : t.NoneJoins u) : s.NoneJoins u := Nat.le_trans k h

theorem of_goes {s t : State} {ps : List Part} (h : s.Goes t ps) (cadence : Part.cadence ∉ ps) : s.NoneJoins t :=
  of_eq (congrArg Cadence.waiting (h.only.cadence cadence))

end State.NoneJoins

theorem Cadence.countOpening_waiting (c : Cadence) (w : Nat) : (c.countOpening w).waiting = c.waiting := by
  unfold Cadence.countOpening
  dsimp only
  split <;> split <;> rfl

theorem State.tickError_noneJoins (s : State) : s.NoneJoins s.tickError := .of_eq (by rw [s.tickError_cadence]; rfl)

theorem State.openPass_noneJoins (s : State) (q : PeriodIndex) (wait : Nat) : s.NoneJoins (s.openPass q wait) :=
  .of_drop (congrArg dropExpiry (s.cadence.countOpening_waiting _))

theorem State.lock_noneJoins (s : State) (n : PeriodIndex) : s.NoneJoins (s.lock n) := by
  have locked : s.NoneJoins s.enterLocked := .of_eq rfl
  have judged (t : State) (q : PeriodIndex) : (t.judgeAllLate q).cadence.waiting = t.cadence.waiting :=
    congrArg Cadence.waiting ((t.judgeAllLate_goes q).only.cadence (by decide))
  have ended (t : State) : t.endAllVoices.cadence.waiting = t.cadence.waiting :=
    congrArg Cadence.waiting (t.endAllVoices_goes.only.cadence (by decide))
  unfold State.lock
  dsimp only
  split
  · refine .trans (.trans locked ?_) (State.openPass_noneJoins _ _ _)
    exact .of_eq (judged _ _)
  · split
    · exact locked.trans (State.openPass_noneJoins _ _ _)
    · refine .trans (.trans locked ?_) (State.openPass_noneJoins _ _ _)
      exact .of_eq (ended _)

theorem State.judgeCandidate_noneJoins (s : State) (n : PeriodIndex) (a : Nat) : s.NoneJoins (s.judgeCandidate n a) := by
  unfold State.judgeCandidate
  split
  · exact .of_eq rfl
  · split
    · exact s.lock_noneJoins n
    · exact .of_eq rfl

theorem State.returnToLocked_noneJoins (s : State) : s.NoneJoins s.returnToLocked := by
  unfold State.returnToLocked
  split <;> exact .of_eq rfl

theorem State.judgeRunning_noneJoins (s : State) (n : PeriodIndex) (a : Nat) : s.NoneJoins (s.judgeRunning n a) := by
  unfold State.judgeRunning
  split
  · exact .refl s
  · split
    · have judged : s.NoneJoins
          (if inWindow s.trackerConfig a s.cadence.lastOpening then s else s.tickError) := by
        split
        · exact .refl s
        · exact s.tickError_noneJoins
      exact .trans judged (.trans (State.returnToLocked_noneJoins _) (State.openPass_noneJoins _ _ _))
    · unfold State.otherTick
      split
      · exact s.tickError_noneJoins
      · split
        · exact s.tickError_noneJoins
        · exact .refl s

theorem State.judgeTick_noneJoins (s : State) (n : PeriodIndex) (a : Nat) : s.NoneJoins (s.judgeTick n a) := by
  have set : s.NoneJoins (s.setCadence { s.cadence with lastTick := some n }) := .of_eq rfl
  unfold State.judgeTick
  dsimp only
  split
  · exact .of_eq rfl
  · exact .of_eq rfl
  · exact set.trans (State.judgeCandidate_noneJoins _ _ _)
  · exact set.trans (State.judgeRunning_noneJoins _ _ _)
  · exact set.trans (State.judgeRunning_noneJoins _ _ _)

theorem State.enterLost_noneJoins (s : State) : s.NoneJoins s.enterLost := by
  unfold State.enterLost
  dsimp only
  split
  · exact .of_drop rfl
  · exact .trans (.of_drop rfl) (.of_goes (State.endAllVoices_goes _) (by decide))

theorem State.coverMissed_noneJoins (s : State) (q : PeriodIndex) : s.NoneJoins (s.coverMissed q) := by
  have counted : s.NoneJoins (s.setCadence { s.cadence with missed := s.cadence.missed + 1 }).tickError :=
    .trans (.of_eq rfl) (State.tickError_noneJoins _)
  unfold State.coverMissed
  dsimp only
  refine .trans (.trans counted ?_) (State.openPass_noneJoins _ _ _)
  split
  · exact .of_eq rfl
  · exact .refl _

theorem State.judgeExpiry_noneJoins (s : State) : s.NoneJoins s.judgeExpiry := by
  unfold State.judgeExpiry
  split
  · split
    · exact s.coverMissed_noneJoins _
    · exact s.enterLost_noneJoins
  · split
    · exact s.coverMissed_noneJoins _
    · exact s.enterLost_noneJoins
  · exact .refl s

theorem State.afterEvent_noneJoins (s : State) : s.NoneJoins s.afterEvent := by
  unfold State.afterEvent
  split
  · exact .of_goes (s.beginPass_goes _) (by decide)
  · by_cases due : s.cadence.limitDue = true
    · rw [State.actOnLimit_of_due due, State.limitAction]
      split
      · exact .of_drop rfl
      · rw [State.markMisaligned_eq]
        exact .of_eq rfl
    · rw [State.actOnLimit_of_not_due (Bool.eq_false_iff.mpr due)]
      exact .refl s

theorem State.takeWaiting_noneJoins (s : State) (i : Waiting) : s.NoneJoins (s.takeWaiting i) := by
  cases i with
  | tick n arrival => exact (s.judgeTick_noneJoins n arrival).trans (State.afterEvent_noneJoins _)
  | expiry e => exact s.judgeExpiry_noneJoins.trans (State.afterEvent_noneJoins _)

/-- R105: that many items are enough that the list holds. -/
theorem State.takeAllWaiting_enough {n : Nat} {s : State} (enough : s.cadence.waiting.length ≤ n) :
    State.takeAllWaiting n s = s.takeWaitingList := by
  have both (m n : Nat) (s : State) (first : s.cadence.waiting.length ≤ m) (second : s.cadence.waiting.length ≤ n) :
      State.takeAllWaiting m s = State.takeAllWaiting n s := by
    induction m generalizing n s with
    | zero =>
      have none_ := List.length_eq_zero_iff.mp (Nat.le_zero.mp first)
      cases n with
      | zero => rfl
      | succ n =>
        rw [State.takeAllWaiting, State.takeAllWaiting, none_]
        split <;> rfl
    | succ m ih =>
      cases n with
      | zero =>
        have none_ := List.length_eq_zero_iff.mp (Nat.le_zero.mp second)
        rw [State.takeAllWaiting, State.takeAllWaiting, none_]
        split <;> rfl
      | succ n =>
        rw [State.takeAllWaiting, State.takeAllWaiting]
        refine if_congr Iff.rfl rfl ?_
        cases items : s.cadence.waiting with
        | nil => rfl
        | cons i rest =>
          rw [items] at first second
          have joins := State.takeWaiting_noneJoins (s.setCadence { s.cadence with waiting := rest }) i
          exact ih n _ (Nat.le_trans joins (Nat.le_of_succ_le_succ first))
            (Nat.le_trans joins (Nat.le_of_succ_le_succ second))
  exact both _ _ s enough (Nat.le_refl _)

theorem State.takeWaitingList_stays {u : State} (none_ : u.pass.isSome = true ∨ u.cadence.waiting = []) :
    u.takeWaitingList = u := by
  rw [State.takeWaitingList]
  cases items : u.cadence.waiting with
  | nil => rfl
  | cons i rest =>
    have under := none_.resolve_right fun is => by rw [items] at is; cases is
    rw [List.length_cons, State.takeAllWaiting]
    exact if_pos under

/-- R105: the item at the head is taken first. -/
theorem State.takeWaitingList_cons {u : State} (pass : u.pass = none) {i : Waiting} {more : List Waiting}
    (items : u.cadence.waiting = i :: more) :
    u.takeWaitingList = (({ u with cadence := { u.cadence with waiting := more } } : State).takeWaiting i).takeWaitingList := by
  have unopened : u.passUnderWay = false := by rw [State.passUnderWay, pass]; rfl
  rw [State.takeWaitingList, items, List.length_cons, State.takeAllWaiting, items, if_neg (by rw [unopened]; nofun)]
  exact State.takeAllWaiting_enough (State.takeWaiting_noneJoins _ i)

/-! ### Ahead of the waiting list -/

/-- Settles the clause of O40 on the action on the error limit (R116, R117). -/
theorem State.actOnLimit_cases (r : State) :
    (r.cadence.limitDue = false → r.actOnLimit = r) ∧
    (r.cadence.limitDue = true →
      ((r.cadence.heldConfig.getD r.config).autoRelock = true → r.actOnLimit =
        { r with cadence := trackerSearch r.cadence,
                 report := r.report.raise (.cadenceState r.cadence.state r.cadence.misaligned .search false) }) ∧
      ((r.cadence.heldConfig.getD r.config).autoRelock = false →
        (r.cadence.misaligned = true → r.actOnLimit = { r with cadence := { r.cadence with limitDue := false } }) ∧
        (r.cadence.misaligned = false → r.actOnLimit =
          { r with cadence := { r.cadence with misaligned := true, limitDue := false },
                   report := r.report.raise (.cadenceState r.cadence.state false r.cadence.state true) }))) := by
  refine ⟨State.actOnLimit_of_not_due, fun due => ?_⟩
  rw [State.actOnLimit_of_due due, State.limitAction, r.trackerConfig_getD]
  refine ⟨fun relocks => ?_, fun stays => ⟨fun marked => ?_, fun unmarked => ?_⟩⟩
  · rw [if_pos relocks, State.searchAgain_eq]
  · rw [if_neg (Bool.eq_false_iff.mp stays), State.markMisaligned, if_pos marked]
    rfl
  · rw [if_neg (Bool.eq_false_iff.mp stays), State.markMisaligned_eq, if_neg (Bool.eq_false_iff.mp unmarked)]

theorem State.reply_told (s : State) (r : Request) (a : Answer) : s.reply r a = toldState s r a := rfl

/-- R105: the request that waited, by its kind. -/
theorem State.finishDeferred_busy {u : State} {r : Request} (busy : u.report.busy = some r) :
    u.finishDeferred = u.finishRequest r := by
  rw [State.finishDeferred, busy]

theorem State.finishRequest_queryVoice (u : State) {r : Request} (kind : r.kind = 0x28) :
    u.finishRequest r = State.finishQueryVoice r u := by
  rw [State.finishRequest, if_neg (by rw [kind]; decide), if_pos (show r.kind = kindQueryVoice from kind)]

theorem State.finishRequest_queryStatus (u : State) {r : Request} (kind : r.kind = 0x2C) :
    u.finishRequest r = State.finishQueryStatus r u := by
  rw [State.finishRequest, if_neg (by rw [kind]; decide), if_neg (by rw [kind]; decide), if_pos (show r.kind = kindQueryStatus from kind)]

theorem State.finishRequest_resync (u : State) {r : Request} (kind : r.kind = 0x2D) :
    u.finishRequest r = State.finishResync r u := by
  rw [State.finishRequest, if_neg (by rw [kind]; decide), if_neg (by rw [kind]; decide), if_neg (by rw [kind]; decide),
    if_pos (show r.kind = kindResync from kind)]

theorem State.finishRequest_reset (u : State) {r : Request} (kind : r.kind = 0x2E) :
    u.finishRequest r = State.finishReset r u := by
  rw [State.finishRequest, if_neg (by rw [kind]; decide), if_neg (by rw [kind]; decide), if_neg (by rw [kind]; decide),
    if_neg (by rw [kind]; decide), if_pos (show r.kind = kindReset from kind)]

theorem State.finishRequest_configure (u : State) {r : Request} (kind : r.kind = 0x20) :
    u.finishRequest r = State.finishConfigure r u := by
  rw [State.finishRequest, if_pos (show r.kind = kindConfigure from kind)]

/-- R172: the fields still to be read are read before the waiting list opens a pass. -/
theorem State.readBefore_waitingList (s : State) : s.readBefore State.takeWaitingList = waitingTaken s := by
  rw [State.readBefore, waitingTaken, State.passUnderWay]
  have out : s.readOut = statusDone s := by
    cases busy : s.report.busy with
    | none => rw [State.readOut, Report.reading?, statusDone, busy]
    | some r =>
      cases reading : s.report.reading with
      | none => rw [State.readOut, Report.reading?, statusDone, busy, reading]
      | some g => exact State.readOut_eq busy reading
  rw [out]
  cases pass : s.takeWaitingList.pass with
  | none => rfl
  | some p => rfl

/-- R105, R106, R145: the completion once every turn has been had. -/
theorem exec_passComplete_done {s : State} {p : Pass} (pass : s.pass = some p) (handed : s.port.handed = [])
    (done : ∀ row ∈ s.voices, row.1 < p.next) (elapsed : Nat) : exec (.passComplete elapsed) s =
      .next (waitingTaken (((s.passTime elapsed).completePass p).takeDeferred s.freeCount)).dispatch := by
  have none_ : (s.passTime elapsed).renderRest p = s.passTime elapsed := by
    rw [State.renderRest, State.turnsLeft_nil (s := s.passTime elapsed) done]
    rfl
  rw [exec_passComplete_takes pass handed, none_, State.finishPass, show (s.passTime elapsed).pass = some p from pass,
    ← State.readBefore_waitingList]
  rfl

/-- R105: a tick of the waiting list is taken as if it had come when the list comes to it. -/
theorem exec_tick_waited {u : State} (pass : u.pass = none) {n : PeriodIndex} {arrival : Nat} (more : List Waiting)
    (handed : u.port.handed = []) (first : ∀ expiry ∈ u.cadence.timer, arrival < expiry) :
    let rest := { u with cadence := { u.cadence with waiting := more } }
    let w := (rest.judgeTick n arrival).afterEvent
    u.NoneRead ∨ w.pass = none →
      exec (.tick 0) { rest with port := { u.port with handed := [⟨n, arrival⟩] } } = .next w.dispatch := by
  intro rest w quiet
  have ready : State.tickReady { rest with port := { u.port with handed := [⟨n, arrival⟩] } } 0 [] = rest := by
    rw [← State.passTime_setPort, State.passTime_zero, ← handed]
    rfl
  have ahead : rest.cadence.expiresBefore arrival = false := by
    show Cadence.expiresBefore { u.cadence with waiting := more } arrival = false
    unfold Cadence.expiresBefore
    cases timer : u.cadence.timer with
    | none => rfl
    | some expiry =>
      have before := first expiry timer
      dsimp only
      rw [decide_eq_false (Nat.not_lt.mpr (Nat.le_of_lt before)), decide_eq_false (Nat.ne_of_gt before)]
      rfl
  refine (execTick_takes (s := { rest with port := { u.port with handed := [⟨n, arrival⟩] } }) rfl ahead pass 0).trans ?_
  rw [ready]
  rcases quiet with noneRead | unopened
  · rw [State.readBefore_noneRead (s := rest) noneRead]
  · rw [State.readBefore_unopened (s := rest) (take := fun u => (u.judgeTick n arrival).afterEvent) unopened]

theorem exec_expiry_waited {u : State} (pass : u.pass = none) (more : List Waiting) (handed : u.port.handed = [])
    (stopped : u.cadence.timer = none) :
    let rest := { u with cadence := { u.cadence with waiting := more } }
    let w := rest.judgeExpiry.afterEvent
    u.NoneRead ∨ w.pass = none → exec .localPeriodTimerExpiry
      { rest with cadence := { rest.cadence with timer := some u.cadence.clock } } = .next w.dispatch := by
  intro rest w quiet
  have expired : State.expireTimer { rest with cadence := { rest.cadence with timer := some u.cadence.clock } }
      u.cadence.clock = rest := by
    have clock : max u.cadence.clock u.cadence.clock = u.cadence.clock := Nat.max_self _
    show { u with cadence := { u.cadence with waiting := more, timer := none,
                                              clock := max u.cadence.clock u.cadence.clock } } = rest
    rw [clock, ← stopped]
  refine (execLocalPeriodTimerExpiry_takes
    (s := { rest with cadence := { rest.cadence with timer := some u.cadence.clock } }) rfl
    (Port.tickBefore_eq_false fun n mem => ?_) pass).trans ?_
  · rw [show ({ rest with cadence := { rest.cadence with timer := some u.cadence.clock } } : State).port.handed = []
      from handed] at mem
    cases mem
  rw [expired]
  rcases quiet with noneRead | unopened
  · rw [State.readBefore_noneRead (s := rest) noneRead]
  · rw [State.readBefore_unopened (s := rest) (take := fun u => u.judgeExpiry.afterEvent) unopened]

/-- A state that differs in its reports, slots and lanes alone. -/
theorem State.ChangesOnly.eq_fetch {s t : State} (h : s.ChangesOnly t fetchParts) :
    t = { s with report := t.report, slots := t.slots, lanes := t.lanes } :=
  (h.wider (by decide)).eq_set.trans (by
    rw [h.port (by decide), h.cadence (by decide), h.pass (by decide), h.voices (by decide)])

theorem State.PassCompletes.kept {s u closed refilled : State} {p : Pass} {elapsed : Nat}
    (h : s.PassCompletes u p elapsed refilled) (refills : closed.ChangesOnly refilled fetchParts) :
    u = { closed with slots := u.slots, lanes := u.lanes, report := u.report, freeCount := s.freeCount + 1 } ∧
      u.slots = refilled.dispatch.slots ∧ u.lanes = refilled.dispatch.lanes := by
  have slots : u.slots = refilled.dispatch.slots := (congrArg State.slots h.is).trans rfl
  have lanes : u.lanes = refilled.dispatch.lanes := (congrArg State.lanes h.is).trans rfl
  refine ⟨?_, slots, lanes⟩
  have dispatched := (refills.trans (refilled.dispatch_goes.only.wider (by decide))).eq_fetch
  rw [slots, lanes]
  have is := h.is
  generalize refilled.dispatch = d at is dispatched ⊢
  rw [dispatched] at is
  exact is

/-- R105: with neither a limit, nor a request, nor an item of the waiting list, nothing more is taken. -/
theorem waitingTaken_nothing {u : State} (waiting : u.cadence.waiting = []) (pass : u.pass = none) : waitingTaken u = u := by
  rw [waitingTaken, State.takeWaitingList_stays (.inr waiting)]
  exact if_pos pass

/-- Settles O40: the turns that are left, the completion in one of its orders, and what is taken after it. -/
theorem passComplete : Obligations.PassComplete := by
  refine ⟨fun s elapsed none_ => exec_passComplete_waits none_ elapsed,
    fun s p elapsed v pass handed rising listed due lower => ?_, fun s p elapsed pass handed done => ?_,
    State.actOnLimit_cases, fun u => ⟨fun idle => ?_, fun r busy => ?_⟩,
    fun u => ⟨State.takeWaitingList_stays, fun pass => ⟨fun n arrival more items => ?_, fun expiry more items => ?_⟩⟩⟩
  · intro u
    rw [exec_passComplete_turn pass handed rising listed due lower elapsed, State.renderTurn_eq]
    rfl
  · intro closed refilled
    have completes := completions_complete (s.completePass_mem p elapsed)
    have refills : closed.ChangesOnly refilled fetchParts :=
      State.foldl_changes _ (fun t v => (t.refillVoice_goes v).only) _ _
    obtain ⟨kept, slots, lanes⟩ := completes.kept refills
    have taken := exec_passComplete_done pass handed done elapsed
    have cadence : ((s.passTime elapsed).completePass p).cadence = closed.cadence := (congrArg State.cadence kept).trans rfl
    have unopened : ((s.passTime elapsed).completePass p).pass = none := (congrArg State.pass kept).trans rfl
    refine ⟨(s.passTime elapsed).completePass p, s.completePass_mem p elapsed, ?_, kept, slots, lanes, completes.busy,
      completes.event, completes.plain, fun notDue idle waiting => ?_⟩
    · rw [taken, State.takeDeferred]
      split
      · exact .inl rfl
      · exact .inr rfl
    · generalize (s.passTime elapsed).completePass p = u at *
      have limit : u.actOnLimit = u := State.actOnLimit_of_not_due (by rw [cadence]; exact notDue)
      have deferred : u.finishDeferred = u := by rw [State.finishDeferred, completes.busy, idle]
      have same : u.takeDeferred s.freeCount = u := by
        rw [State.takeDeferred, limit, deferred, limit, ite_self]
      rw [taken, same, waitingTaken_nothing (by rw [cadence]; exact waiting) unopened]
  · rw [State.finishDeferred, idle]
  · intro used
    rw [State.finishDeferred_busy busy]
    refine ⟨fun kind distinct => ?_, fun kind => ?_, fun kind => ?_, fun kind => ?_, fun kind => ?_⟩
    · rw [u.finishRequest_queryVoice kind, State.finishQueryVoice]
      refine ⟨fun absent => ?_, fun v x voice tag => ?_⟩
      · rw [State.voiceAnswer_absent absent]
        rfl
      · rw [State.voiceAnswer_present distinct voice tag]
        rfl
    · rw [u.finishRequest_queryStatus kind, State.finishQueryStatus, statusParts_eq]
      exact ⟨_, congrArg used (u.readOn_eq r ⟨[], statusOrder⟩ _)⟩
    · rw [u.finishRequest_resync kind, State.finishResync]
      refine ⟨fun search => ?_, fun other => ?_⟩
      · rw [State.forceSearch_search search]
        rfl
      · rw [State.forceSearch_other other]
        rfl
    · rw [u.finishRequest_reset kind]
      exact ⟨_, rfl, u.softReset_left r⟩
    · rw [u.finishRequest_configure kind, State.finishConfigure, State.configureTracker_eq]
      rfl
  · intro rest w
    exact ⟨State.takeWaitingList_cons pass items, fun handed first => exec_tick_waited pass more handed first⟩
  · intro rest w
    exact ⟨State.takeWaitingList_cons pass items, fun handed stopped => exec_expiry_waited pass more handed stopped⟩

end Sys2Proof.Machine
end

section
/-! SUPPORT. A lane that goes OFFLINE (R12, R79, R82, R99): what the reads it had and the parts that waited for it leave,
slot by slot. -/

namespace Sys2Proof.Machine

/-! ### What losing reads and parts may change -/

/-- From `s` to `t` parts of the OFFLINE lane `l` are resolved: FETCH_LOST alone is raised, and no part joins the queue
of that lane. -/
structure State.Resolves (s t : State) (l : LaneId) : Prop where
  only   : s.ChangesOnly t fetchParts
  lanes  : s.LanesOnly t [.queue, .segments]
  others : ∀ m, m ≠ l → (t.lane m).segments = (s.lane m).segments
  queue  : ∀ n ∈ (t.lane l).queue, n ∈ (s.lane l).queue
  event  : ∀ k, k ≠ .fetchLost → t.report.event k = s.report.event k
  raw    : (s.report.event .fetchLost).raw = true → (t.report.event .fetchLost).raw = true

/-- The entries of a fetch queue that are parts of slot `j` of record `v`. -/
def entriesOf (v j : Nat) (q : List QueueEntry) : List QueueEntry :=
  q.filter fun n => n.voice == v && n.slot == j

theorem mem_entriesOf {v j : Nat} {q : List QueueEntry} {n : QueueEntry} :
    n ∈ entriesOf v j q ↔ n ∈ q ∧ n.voice = v ∧ n.slot = j := by
  rw [entriesOf, List.mem_filter, Bool.and_eq_true, beq_iff_eq, beq_iff_eq]

/-- Slot `j` of record `v` is as it was, and so are its parts in the four queues. -/
structure State.SlotKept (s t : State) (v j : Nat) : Prop where
  slot    : t.slot? v j = s.slot? v j
  entries : ∀ m, entriesOf v j (t.lane m).queue = entriesOf v j (s.lane m).queue

theorem State.SlotKept.refl (s : State) (v j : Nat) : s.SlotKept s v j := ⟨rfl, fun _ => rfl⟩

theorem State.SlotKept.trans {s t u : State} {v j : Nat} (h : s.SlotKept t v j) (k : t.SlotKept u v j) :
    s.SlotKept u v j := ⟨k.slot.trans h.slot, fun m => (k.entries m).trans (h.entries m)⟩

namespace State.Resolves

variable {s t u : State} {l : LaneId}

theorem trans (h : s.Resolves t l) (k : t.Resolves u l) : s.Resolves u l :=
  ⟨h.only.trans k.only, h.lanes.trans k.lanes, fun m other => (k.others m other).trans (h.others m other),
    fun n mem => h.queue n (k.queue n mem), fun e other => (k.event e other).trans (h.event e other), k.raw ∘ h.raw⟩

theorem offline (h : s.Resolves t l) (offline : (s.lane l).state = .offline) : (t.lane l).state = .offline :=
  (h.lanes.state (by decide) l).trans offline

/-- A step that changes no lane and no report. -/
theorem of_slots (only : s.ChangesOnly t [.slots]) : s.Resolves t l := by
  have lane (m : LaneId) : t.lane m = s.lane m := by rw [State.lane, State.lane, only.lanes (by decide)]
  have report := only.report (by decide)
  exact ⟨only.wider (by decide), only.lanesOnly (by decide), fun m _ => by rw [lane], fun n mem => lane l ▸ mem,
    fun k _ => by rw [report], fun raw => by rw [report]; exact raw⟩

theorem refl (s : State) (l : LaneId) : s.Resolves s l := of_slots (.refl s _)

end State.Resolves

/-- Reports to which a FETCH_LOST has been added, or nothing. -/
def Report.LostTold (q r : Report) : Prop := r = q ∨ ∃ c : Capture, c.kind = .fetchLost ∧ r = q.raise c

theorem Report.LostTold.event {q r : Report} (h : q.LostTold r) {k : EventKind} (other : k ≠ .fetchLost) :
    r.event k = q.event k := by
  rcases h with rfl | ⟨c, kind, rfl⟩
  · rfl
  · exact q.raise_event_other fun is => other (is.trans kind)

theorem Report.raise_raw (q : Report) {c : Capture} (kind : c.kind = .fetchLost) :
    ((q.raise c).event .fetchLost).raw = true := by
  rw [← kind, Report.raise_event_same]
  rfl

theorem Report.LostTold.raw {q r : Report} (h : q.LostTold r) (raw : (q.event .fetchLost).raw = true) :
    (r.event .fetchLost).raw = true := by
  rcases h with rfl | ⟨c, kind, rfl⟩
  · exact raw
  · exact q.raise_raw kind

/-- A step that changes the queues, but gives the lane `l` no part. -/
theorem State.Resolves.of_queues {s t : State} {l : LaneId} (only : s.ChangesOnly t fetchParts)
    (lanes : s.LanesOnly t [.queue]) (queue : ∀ n ∈ (t.lane l).queue, n ∈ (s.lane l).queue)
    (told : s.report.LostTold t.report) : s.Resolves t l :=
  ⟨only, lanes.wider (by decide), fun m _ => lanes.segments (by decide) m, queue, fun _ other => told.event other, told.raw⟩

/-! ### The operations on one slot -/

theorem State.loseSlot_lane (s : State) (v j : Nat) (l : LaneId) (slot : Slot) (marks : List PartMark) (count : Nat)
    (m : LaneId) : (s.loseSlot v j l slot marks count).lane m =
      { s.lane m with queue := (s.lane m).queue.filter fun n => !(n.voice == v && n.slot == j) } := by
  rw [State.loseSlot_eq]
  exact PerLane.get_map _ _ m

theorem State.loseSlot_slot? (s : State) (v j : Nat) (l : LaneId) (slot : Slot) (marks : List PartMark) (count w i : Nat) :
    (s.loseSlot v j l slot marks count).slot? w i = if slotIndex w i = slotIndex v j then
      some { slot with state := .lost, marks := failWaiting marks, outstanding := count } else s.slot? w i := by
  rw [State.loseSlot_eq]
  exact s.slot?_putSlot v j _ w i

/-- R70, R82: the parts of a chunk as they join the queue of their lane. -/
def chunkEntries (period v j : Nat) (x : Voice) (e : SampleEntry) (k : Nat) : List QueueEntry :=
  (chunkParts x e k).zipIdx.map fun r =>
    ⟨v, j, r.2, x.startPeriod + BitVec.ofNat 32 ((x.offset + k * 1024) / period), partAddress e r.1, partUnitCount e r.1⟩

/-- R70: a chunk asked of an OFFLINE lane. -/
theorem chunkTaken_offline {s : State} {e : SampleEntry} (offline : (s.lane e.lane).state = .offline) (v j : Nat) (x : Voice)
    (k : Nat) : chunkTaken s v j x e k = (s.putSlot v j
      { state := .lost, chunk := k, retryUsed := false, outstanding := 0, successor := none,
        deadline := x.startPeriod + BitVec.ofNat 32 ((x.offset + k * 1024) / s.config.period),
        marks := (chunkParts x e k).map fun _ => .failed }).raise (.fetchLost x.tag e.lane k) :=
  if_pos offline

/-- R73: a chunk whose parts join the queue of their lane. -/
theorem chunkTaken_online {s : State} {e : SampleEntry} (online : (s.lane e.lane).state ≠ .offline) (v j : Nat) (x : Voice)
    (k : Nat) : chunkTaken s v j x e k = (s.putSlot v j
      { state := .queued, chunk := k, retryUsed := false, outstanding := 0, successor := none,
        deadline := x.startPeriod + BitVec.ofNat 32 ((x.offset + k * 1024) / s.config.period),
        marks := (chunkParts x e k).map fun _ => .waiting }).setLane e.lane
      { s.lane e.lane with
        queue := (chunkEntries s.config.period v j x e k).foldl queueInsert (s.lane e.lane).queue } :=
  if_neg online

theorem chunkTaken_lane (s : State) (v j : Nat) (x : Voice) (e : SampleEntry) (k : Nat) (m : LaneId) :
    (chunkTaken s v j x e k).lane m =
      if (s.lane e.lane).state ≠ .offline ∧ m = e.lane then
        { s.lane m with queue := (chunkEntries s.config.period v j x e k).foldl queueInsert (s.lane m).queue }
      else s.lane m := by
  by_cases offline : (s.lane e.lane).state = .offline
  · rw [chunkTaken_offline offline, if_neg fun both => both.1 offline]
    rfl
  · rw [chunkTaken_online offline, State.lane_setLane]
    by_cases is : m = e.lane
    · rw [if_pos is, if_pos ⟨offline, is⟩, is]
    · rw [if_neg is, if_neg fun both => is both.2]
      rfl

theorem chunkTaken_report (s : State) (v j : Nat) (x : Voice) (e : SampleEntry) (k : Nat) :
    s.report.LostTold (chunkTaken s v j x e k).report := by
  by_cases offline : (s.lane e.lane).state = .offline
  · rw [chunkTaken_offline offline]
    exact .inr ⟨_, rfl, rfl⟩
  · rw [chunkTaken_online offline]
    exact .inl rfl

section slots

variable {v w i j : Nat} (hj : j < 8) (hi : i < 8) (other : ¬(v = w ∧ j = i))
include hj hi other

theorem slotIndex_other : slotIndex v j ≠ slotIndex w i := fun same => other (slotIndex_inj hj hi same)

theorem State.putSlot_kept (s : State) (x : Slot) : s.SlotKept (s.putSlot w i x) v j :=
  ⟨(s.slot?_putSlot w i x v j).trans (if_neg (slotIndex_other hj hi other)), fun _ => rfl⟩

theorem State.clearSlot_kept (s : State) : s.SlotKept (s.clearSlot w i) v j :=
  ⟨(s.slot?_clearSlot w i v j).trans (if_neg (slotIndex_other hj hi other)), fun _ => rfl⟩

omit hj hi in
theorem entriesOf_unqueued (q : List QueueEntry) :
    entriesOf v j (q.filter fun n => !(n.voice == w && n.slot == i)) = entriesOf v j q := by
  rw [entriesOf, entriesOf, List.filter_filter]
  refine List.filter_congr fun n _ => ?_
  by_cases same : n.voice = v ∧ n.slot = j
  · obtain ⟨rfl, rfl⟩ := same
    have apart : (n.voice == w && n.slot == i) = false := by
      rw [Bool.eq_false_iff]
      intro both
      rw [Bool.and_eq_true, beq_iff_eq, beq_iff_eq] at both
      exact other both
    rw [apart]
    simp
  · have no : (n.voice == v && n.slot == j) = false := by
      rw [Bool.eq_false_iff]
      intro both
      rw [Bool.and_eq_true, beq_iff_eq, beq_iff_eq] at both
      exact same both
    rw [no]
    rfl

omit hj hi in
theorem entriesOf_inserted {rows : List QueueEntry} (inRing : ∀ n ∈ rows, n.voice = w ∧ n.slot = i) (q : List QueueEntry) :
    entriesOf v j (rows.foldl queueInsert q) = entriesOf v j q := by
  induction rows generalizing q with
  | nil => rfl
  | cons n rows ih =>
    rw [List.foldl_cons, ih fun m mem => inRing m (.tail _ mem)]
    obtain ⟨ahead, behind, split, placed, -, -⟩ := queueInsert_split q n
    obtain ⟨voice, slot⟩ := inRing n (.head _)
    have no : ¬ (n.voice == v && n.slot == j) = true := by
      rw [Bool.and_eq_true, beq_iff_eq, beq_iff_eq, voice, slot]
      exact fun both => other ⟨both.1.symm, both.2.symm⟩
    rw [placed, split, entriesOf, entriesOf, List.filter_append, List.filter_append, List.filter_cons, if_neg no]

theorem State.loseSlot_kept (s : State) (l : LaneId) (slot : Slot) (marks : List PartMark) (count : Nat) :
    s.SlotKept (s.loseSlot w i l slot marks count) v j := by
  refine ⟨(s.loseSlot_slot? w i l slot marks count v j).trans (if_neg (slotIndex_other hj hi other)), fun m => ?_⟩
  rw [State.loseSlot_lane]
  exact entriesOf_unqueued other _

theorem chunkTaken_kept (s : State) (x : Voice) (e : SampleEntry) (k : Nat) : s.SlotKept (chunkTaken s w i x e k) v j := by
  refine ⟨(chunkTaken_slots s w i x e k v j).trans (if_neg (slotIndex_other hj hi other)), fun m => ?_⟩
  rw [chunkTaken_lane]
  split
  · refine entriesOf_inserted other (fun n mem => ?_) _
    obtain ⟨r, -, rfl⟩ := List.mem_map.mp mem
    exact ⟨rfl, rfl⟩
  · rfl

theorem State.drainRead_kept (s : State) (p : Nat) (slot : Slot) : s.SlotKept (s.drainRead w i p slot) v j := by
  unfold State.drainRead State.resolveDrained
  split
  · split
    · split
      · rw [State.setUpChunk_eq]
        exact chunkTaken_kept hj hi other s _ _ _
      · exact s.clearSlot_kept hj hi other
    · exact s.clearSlot_kept hj hi other
  · exact s.putSlot_kept hj hi other _

/-- R79, R82: losing a read leaves every slot but that of its part. -/
theorem State.failPart_kept (s : State) (p : Nat) (l : LaneId) (a n : Nat) :
    s.SlotKept (s.failPart w i p l false a n) v j := by
  unfold State.failPart
  split
  · exact .refl s v j
  split
  · exact s.loseSlot_kept hj hi other l _ _ _
  · exact s.drainRead_kept hj hi other p _
  · exact s.putSlot_kept hj hi other _
  · exact .refl s v j
  · exact .refl s v j

end slots

theorem State.loseSlot_told (s : State) (v : Nat) (l : LaneId) (chunk : Nat) : s.report.LostTold (s.lostReport v l chunk) := by
  unfold State.lostReport
  split
  · exact .inl rfl
  · exact .inr ⟨_, rfl, rfl⟩

theorem State.loseSlot_resolves (s : State) (v j : Nat) (m : LaneId) (slot : Slot) (marks : List PartMark) (count : Nat)
    (l : LaneId) : s.Resolves (s.loseSlot v j m slot marks count) l := by
  refine .of_queues (s.loseSlot_goes _ _ _ _ _ _).only (s.loseSlot_lanesOnly _ _ _ _ _ _) ?_ ?_
  · rw [State.loseSlot_lane]
    exact fun n mem => (List.mem_filter.mp mem).1
  · rw [State.loseSlot_eq]
    exact s.loseSlot_told v m slot.chunk

theorem State.setUpChunk_resolves {s : State} {l : LaneId} (offline : (s.lane l).state = .offline) (v j : Nat) (x : Voice)
    (e : SampleEntry) (k : Nat) : s.Resolves (s.setUpChunk v j x e k) l := by
  refine .of_queues (s.setUpChunk_goes _ _ _ _ _).only (s.setUpChunk_lanesOnly _ _ _ _ _) ?_ ?_
  · rw [State.setUpChunk_eq, chunkTaken_lane, if_neg fun both => both.1 (both.2 ▸ offline)]
    exact fun n mem => mem
  · rw [State.setUpChunk_eq]
    exact chunkTaken_report s v j x e k

theorem State.drainRead_resolves {s : State} {l : LaneId} (offline : (s.lane l).state = .offline) (v j p : Nat) (slot : Slot) :
    s.Resolves (s.drainRead v j p slot) l := by
  unfold State.drainRead State.resolveDrained
  split
  · split
    · split
      · exact State.setUpChunk_resolves offline _ _ _ _ _
      · exact .of_slots (s.clearSlot_goes _ _).only
    · exact .of_slots (s.clearSlot_goes _ _).only
  · exact .of_slots (s.putSlot_goes _ _ _).only

/-- R79, R82: what losing a read may change. -/
theorem State.failPart_resolves {s : State} {l : LaneId} (offline : (s.lane l).state = .offline) (v j p : Nat) (m : LaneId)
    (a n : Nat) : s.Resolves (s.failPart v j p m false a n) l := by
  unfold State.failPart
  split
  · exact .refl s l
  split
  · exact s.loseSlot_resolves _ _ _ _ _ _ l
  · exact State.drainRead_resolves offline _ _ _ _
  · exact .of_slots (s.putSlot_goes _ _ _).only
  · exact .refl s l
  · exact .refl s l

/-! ### The reads and the parts of one slot -/

/-- The read entry is of a part of slot `j` of record `v`. -/
def ReadEntry.reads (v j : Nat) : ReadEntry → Bool
  | .busy (.stream w i _) _ _ _ => w == v && i == j
  | .busy (.priming _ _ _) _ _ _ => false
  | .stale _ => false

theorem ReadEntry.reads_iff {v j : Nat} {r : ReadEntry} :
    r.reads v j = true ↔ ∃ p a u ms, r = .busy (.stream v j p) a u ms := by
  cases r with
  | stale hold => exact ⟨nofun, fun ⟨_, _, _, _, is⟩ => nomatch is⟩
  | busy owner a u ms =>
    cases owner with
    | priming h i d => exact ⟨nofun, fun ⟨_, _, _, _, is⟩ => nomatch is⟩
    | stream w i p =>
      rw [ReadEntry.reads, Bool.and_eq_true, beq_iff_eq, beq_iff_eq]
      refine ⟨fun ⟨voice, slot⟩ => ⟨p, a, u, ms, by rw [voice, slot]⟩, fun ⟨_, _, _, _, is⟩ => ?_⟩
      cases is
      exact ⟨rfl, rfl⟩

/-- A stream read is of a slot of a ring. -/
def ReadEntry.InRing (r : ReadEntry) : Prop := ∀ w i p a u ms, r = .busy (.stream w i p) a u ms → i < 8

/-- Slot `j` of record `v` is LOST with the chunk, and no part of it waits. -/
def State.LostAs (t : State) (v j chunk : Nat) : Prop :=
  ∃ x, t.slot? v j = some x ∧ x.state = .lost ∧ x.chunk = chunk ∧ .waiting ∉ x.marks

theorem State.LostAs.kept {s t : State} {v j chunk : Nat} (h : s.LostAs v j chunk) (k : s.SlotKept t v j) :
    t.LostAs v j chunk := by
  obtain ⟨x, slot, rest⟩ := h
  exact ⟨x, k.slot.trans slot, rest⟩

theorem failWaiting_not_waiting (marks : List PartMark) : .waiting ∉ failWaiting marks := by
  intro mem
  obtain ⟨m, -, is⟩ := List.mem_map.mp mem
  by_cases waits : m = .waiting
  · rw [if_pos waits] at is
    cases is
  · rw [if_neg waits] at is
    exact waits is

/-- R79: a slot that becomes LOST. -/
theorem State.loseSlot_lostAs (s : State) (v j : Nat) (l : LaneId) (slot : Slot) (marks : List PartMark) (count : Nat) :
    (s.loseSlot v j l slot marks count).LostAs v j slot.chunk ∧ ((s.voice? v).isSome = true →
      ((s.loseSlot v j l slot marks count).report.event .fetchLost).raw = true) := by
  refine ⟨⟨_, (s.loseSlot_slot? v j l slot marks count v j).trans (if_pos rfl), rfl, rfl, failWaiting_not_waiting _⟩,
    fun voice => ?_⟩
  obtain ⟨x, is⟩ := Option.isSome_iff_exists.mp voice
  rw [State.loseSlot_eq]
  show ((s.lostReport v l slot.chunk).event .fetchLost).raw = true
  rw [State.lostReport_of_voice is]
  exact s.report.raise_raw rfl

/-- A step over the items that a lane loses, as slot `j` of record `v` sees it: an item of another slot leaves it, and
one of its own makes it LOST where it was in a state that is lost, and leaves it LOST. -/
structure LosesSlot {α : Type} (f : State → α → State) (l : LaneId) (v j : Nat) (alive : SlotState → Prop)
    (own inRing : α → Prop) : Prop where
  resolves : ∀ {s : State} (a : α), (s.lane l).state = .offline → s.Resolves (f s a) l
  kept     : ∀ {s : State} (a : α), inRing a → ¬ own a → s.SlotKept (f s a) v j
  lost     : ∀ {s : State} (a : α) {chunk : Nat}, own a → s.LostAs v j chunk → (f s a).LostAs v j chunk
  live     : ∀ {s : State} (a : α) {x : Slot}, own a → s.slot? v j = some x → alive x.state →
    (f s a).LostAs v j x.chunk ∧ ((s.voice? v).isSome = true → ((f s a).report.event .fetchLost).raw = true)

namespace LosesSlot

variable {α : Type} {f : State → α → State} {l : LaneId} {v j : Nat} {alive : SlotState → Prop} {own inRing : α → Prop}

theorem foldl_resolves (h : LosesSlot f l v j alive own inRing) (rows : List α) {s : State}
    (offline : (s.lane l).state = .offline) : s.Resolves (rows.foldl f s) l := by
  induction rows generalizing s with
  | nil => exact .refl s l
  | cons a rows ih =>
    have first := h.resolves a offline
    exact first.trans (ih (first.offline offline))

theorem foldl_kept (h : LosesSlot f l v j alive own inRing) {rows : List α} (ring : ∀ a ∈ rows, inRing a)
    (none_ : ∀ a ∈ rows, ¬ own a) (s : State) : s.SlotKept (rows.foldl f s) v j := by
  induction rows generalizing s with
  | nil => exact .refl s v j
  | cons a rows ih =>
    exact (h.kept a (ring a (.head _)) (none_ a (.head _))).trans
      (ih (fun b mem => ring b (.tail _ mem)) (fun b mem => none_ b (.tail _ mem)) _)

theorem foldl_lost (h : LosesSlot f l v j alive own inRing) {rows : List α} (ring : ∀ a ∈ rows, inRing a) {s : State}
    {chunk : Nat} (lost : s.LostAs v j chunk) : (rows.foldl f s).LostAs v j chunk := by
  induction rows generalizing s with
  | nil => exact lost
  | cons a rows ih =>
    refine ih (fun b mem => ring b (.tail _ mem)) ?_
    by_cases mine : own a
    · exact h.lost a mine lost
    · exact lost.kept (h.kept a (ring a (.head _)) mine)

theorem foldl_live (h : LosesSlot f l v j alive own inRing) {rows : List α} (ring : ∀ a ∈ rows, inRing a) {s : State}
    (offline : (s.lane l).state = .offline) {x : Slot} (slot : s.slot? v j = some x) (live : alive x.state)
    (some_ : ∃ a ∈ rows, own a) : (rows.foldl f s).LostAs v j x.chunk ∧ ((s.voice? v).isSome = true →
      ((rows.foldl f s).report.event .fetchLost).raw = true) := by
  induction rows generalizing s with
  | nil => exact absurd some_ (by simp)
  | cons a rows ih =>
    have behind : ∀ b ∈ rows, inRing b := fun b mem => ring b (.tail _ mem)
    have first := h.resolves a offline
    by_cases mine : own a
    · obtain ⟨lost, raw⟩ := h.live a mine slot live
      exact ⟨h.foldl_lost behind lost, fun voice => (h.foldl_resolves rows (first.offline offline)).raw (raw voice)⟩
    · have kept := h.kept (s := s) a (ring a (.head _)) mine
      obtain ⟨b, mem, is⟩ := some_
      have later : ∃ b ∈ rows, own b := by
        rcases List.mem_cons.mp mem with rfl | mem
        · exact absurd is mine
        · exact ⟨b, mem, is⟩
      obtain ⟨lost, raw⟩ := ih behind (first.offline offline) (kept.slot.trans slot) later
      refine ⟨lost, fun voice => raw ?_⟩
      rwa [State.voice?, first.only.voices (by decide)]

end LosesSlot

/-! ### The reads of the lane -/

theorem State.suspendSegment_resolves (s : State) (l : LaneId) (h j : Nat) : s.Resolves (s.suspendSegment l h j) l := by
  have only := (s.suspendSegment_goes l h j).only
  have lanes := s.suspendSegment_lanesOnly l h j
  have report := only.report (by decide)
  refine ⟨only.wider (by decide), lanes.wider (by decide), fun m other => ?_, fun n mem => ?_, fun k _ => by rw [report],
    fun raw => by rw [report]; exact raw⟩
  · unfold State.suspendSegment
    split
    · rw [State.markSegment, State.lane_setLane, if_neg other]
    · rfl
  · rwa [lanes.queue (by decide)] at mem

theorem State.suspendSegment_kept (s : State) (l : LaneId) (h i v j : Nat) : s.SlotKept (s.suspendSegment l h i) v j :=
  ⟨by rw [State.slot?, (s.suspendSegment_goes l h i).only.slots (by decide)]; rfl,
    fun m => by rw [(s.suspendSegment_lanesOnly l h i).queue (by decide)]⟩

theorem State.resolveOffline_stream (s : State) (l : LaneId) {row : Nat × ReadEntry} {v j p a u ms : Nat}
    (is : row.2 = .busy (.stream v j p) a u ms) : s.resolveOffline l row = s.failPart v j p l false a u := by
  rw [State.resolveOffline, is]

theorem State.LostAs.failPart {s : State} {v j chunk : Nat} (lost : s.LostAs v j chunk) (p : Nat) (l : LaneId) (a n : Nat) :
    (s.failPart v j p l false a n).LostAs v j chunk := by
  obtain ⟨x, slot, state, same, marks⟩ := lost
  rw [State.failPart_eq slot, state]
  refine ⟨_, (s.slot?_putSlot v j _ v j).trans (if_pos rfl), state, same, fun mem => ?_⟩
  rcases List.mem_or_eq_of_mem_set mem with mem | is
  · exact marks mem
  · cases is

theorem resolveOffline_loses {v j : Nat} (hj : j < 8) (l : LaneId) :
    LosesSlot (State.resolveOffline l) l v j (· = .inFlight) (fun row => row.2.reads v j = true)
      (fun row => row.2.InRing) where
  resolves := fun {s} row offline => by
    unfold State.resolveOffline
    split
    · exact State.failPart_resolves offline _ _ _ _ _ _
    · split
      · exact .refl s l
      · exact s.suspendSegment_resolves l _ _
    · exact .refl s l
  kept := fun {s} row ring other => by
    unfold State.resolveOffline
    split
    case h_1 w i p a u ms is =>
      refine State.failPart_kept hj (ring w i p a u ms is) (fun same => other ?_) s p l a u
      rw [is, ReadEntry.reads, same.1, same.2, beq_self_eq_true, beq_self_eq_true]
      rfl
    · split
      · exact .refl s v j
      · exact s.suspendSegment_kept l _ _ v j
    · exact .refl s v j
  lost := fun {s} row {chunk} own lost => by
    obtain ⟨p, a, u, ms, is⟩ := ReadEntry.reads_iff.mp own
    rw [s.resolveOffline_stream l is]
    exact lost.failPart p l a u
  live := fun {s} row {x} own slot alive => by
    obtain ⟨p, a, u, ms, is⟩ := ReadEntry.reads_iff.mp own
    rw [s.resolveOffline_stream l is, State.failPart_eq slot, alive]
    exact s.loseSlot_lostAs v j l x _ _

theorem loseQueued_loses {v j : Nat} (hj : j < 8) (l : LaneId) :
    LosesSlot (fun (s : State) n => s.loseQueued l n) l v j (fun state => state = .queued ∨ state = .inFlight)
      (fun n => n.voice = v ∧ n.slot = j) (fun n => n.slot < 8) where
  resolves := fun {s} n offline => by
    unfold State.loseQueued
    split
    · exact .refl s l
    · split
      · exact .refl s l
      · exact s.loseSlot_resolves _ _ _ _ _ _ l
  kept := fun {s} n ring other => by
    unfold State.loseQueued
    split
    · exact .refl s v j
    · split
      · exact .refl s v j
      · exact State.loseSlot_kept hj ring (fun same => other ⟨same.1.symm, same.2.symm⟩) s l _ _ _
  lost := fun {s} n {chunk} own lost => by
    obtain ⟨x, slot, state, rest⟩ := lost
    rw [State.loseQueued, own.1, own.2, slot]
    dsimp only
    rw [if_pos state]
    exact ⟨x, slot, state, rest⟩
  live := fun {s} n {x} own slot alive => by
    rw [State.loseQueued, own.1, own.2, slot]
    dsimp only
    rw [if_neg (by rcases alive with is | is <;> rw [is] <;> nofun)]
    exact s.loseSlot_lostAs v j l x _ _

/-! ### A DRAINING slot -/

/-- The reads among the rows that are of slot `j` of record `v`. -/
def readsOf (v j : Nat) (rows : List (Nat × ReadEntry)) : Nat := (rows.filter fun row => row.2.reads v j).length

theorem readsOf_own {v j : Nat} {row : Nat × ReadEntry} (own : row.2.reads v j = true) (rows : List (Nat × ReadEntry)) :
    readsOf v j (row :: rows) = readsOf v j rows + 1 := by
  rw [readsOf, List.filter_cons, if_pos own]
  rfl

theorem readsOf_other {v j : Nat} {row : Nat × ReadEntry} (other : ¬ row.2.reads v j = true) (rows : List (Nat × ReadEntry)) :
    readsOf v j (row :: rows) = readsOf v j rows := by
  rw [readsOf, List.filter_cons, if_neg other]
  rfl

theorem readsOf_eq_zero {v j : Nat} {rows : List (Nat × ReadEntry)} (none_ : readsOf v j rows = 0) :
    ∀ row ∈ rows, ¬ row.2.reads v j = true :=
  List.filter_eq_nil_iff.mp (List.length_eq_zero_iff.mp none_)

section drains

variable {v j : Nat} (hj : j < 8) {l : LaneId}
include hj

/-- R82: a DRAINING slot that is read elsewhere too stays DRAINING. -/
theorem foldl_resolveOffline_draining {rows : List (Nat × ReadEntry)} (ring : ∀ row ∈ rows, row.2.InRing) {s : State}
    {x : Slot} (slot : s.slot? v j = some x) (state : x.state = .draining) (more : readsOf v j rows < x.outstanding) :
    ∃ y, (rows.foldl (State.resolveOffline l) s).slot? v j = some y ∧ y.state = .draining ∧ y.chunk = x.chunk ∧
      y.successor = x.successor := by
  induction rows generalizing s x with
  | nil => exact ⟨x, slot, state, rfl, rfl⟩
  | cons row rows ih =>
    have behind : ∀ row ∈ rows, row.2.InRing := fun b mem => ring b (.tail _ mem)
    by_cases own : row.2.reads v j = true
    · rw [readsOf_own own] at more
      obtain ⟨p, a, u, ms, is⟩ := ReadEntry.reads_iff.mp own
      rw [List.foldl_cons, s.resolveOffline_stream l is, State.failPart_eq slot, state]
      dsimp only
      rw [State.drainRead_counted (by omega)]
      have here : (s.countLostRead v j p x).slot? v j =
          some { x with outstanding := x.outstanding - 1, marks := x.marks.set p .failed } :=
        (s.slot?_putSlot v j _ v j).trans (if_pos rfl)
      obtain ⟨y, left⟩ := ih behind here state (show readsOf v j rows < x.outstanding - 1 by omega)
      exact ⟨y, left⟩
    · rw [readsOf_other own] at more
      have kept := (resolveOffline_loses hj l).kept (s := s) row (ring row (.head _)) own
      exact ih behind (kept.slot.trans slot) state more

/-- R82: the last of the reads of a DRAINING slot resolves it. -/
theorem foldl_resolveOffline_drained {rows : List (Nat × ReadEntry)} (ring : ∀ row ∈ rows, row.2.InRing) {s : State}
    (offline : (s.lane l).state = .offline) {x : Slot} (slot : s.slot? v j = some x) (state : x.state = .draining)
    (reads : 0 < x.outstanding) (all : readsOf v j rows = x.outstanding) : ∃ (r : State) (y : Slot) (p : Nat),
      s.Resolves r l ∧ y.successor = x.successor ∧ y.outstanding ≤ 1 ∧
      (r.drainRead v j p y).Resolves (rows.foldl (State.resolveOffline l) s) l ∧
      (r.drainRead v j p y).SlotKept (rows.foldl (State.resolveOffline l) s) v j := by
  have loses := resolveOffline_loses (v := v) hj l
  induction rows generalizing s x with
  | nil =>
    rw [← all] at reads
    exact absurd reads (Nat.lt_irrefl _)
  | cons row rows ih =>
    have behind : ∀ row ∈ rows, row.2.InRing := fun b mem => ring b (.tail _ mem)
    have first := loses.resolves row offline
    by_cases own : row.2.reads v j = true
    · rw [readsOf_own own] at all
      obtain ⟨p, a, u, ms, is⟩ := ReadEntry.reads_iff.mp own
      have resolved : s.resolveOffline l row = s.drainRead v j p x := by
        rw [s.resolveOffline_stream l is, State.failPart_eq slot, state]
      rw [List.foldl_cons]
      by_cases last : x.outstanding ≤ 1
      · refine ⟨s, x, p, .refl s l, rfl, last, ?_, ?_⟩ <;> rw [← resolved]
        · exact loses.foldl_resolves rows (first.offline offline)
        · exact loses.foldl_kept behind (readsOf_eq_zero (by omega)) _
      · have counted : s.resolveOffline l row = s.countLostRead v j p x :=
          resolved.trans (State.drainRead_counted (Nat.lt_of_not_le last))
        have here : (s.resolveOffline l row).slot? v j =
            some { x with outstanding := x.outstanding - 1, marks := x.marks.set p .failed } := by
          rw [counted]
          exact (s.slot?_putSlot v j _ v j).trans (if_pos rfl)
        obtain ⟨r, y, q, before, successor, one, after, kept⟩ := ih behind (first.offline offline) here state
          (show 0 < x.outstanding - 1 by omega) (show readsOf v j rows = x.outstanding - 1 by omega)
        exact ⟨r, y, q, first.trans before, successor, one, after, kept⟩
    · rw [readsOf_other own] at all
      have kept := loses.kept (s := s) row (ring row (.head _)) own
      obtain ⟨r, y, q, before, rest⟩ := ih behind (first.offline offline) (kept.slot.trans slot) state reads all
      exact ⟨r, y, q, first.trans before, rest⟩

end drains

theorem readsOf_filterMap {v j : Nat} {f : Nat × ReadEntry → Option (Nat × Nat × Nat)}
    (own : ∀ row, ((f row).filter fun r => r.1 == v && r.2.1 == j).isSome = row.2.reads v j)
    (rows : List (Nat × ReadEntry)) :
    ((rows.filterMap f).filter fun r => r.1 == v && r.2.1 == j).length = readsOf v j rows := by
  rw [List.filter_filterMap, List.length_filterMap_eq_countP, readsOf, ← List.countP_eq_length_filter]
  exact List.countP_congr fun row _ => by rw [own row]

/-- R88: a slot's count of reads, lane by lane. -/
theorem State.partsRead_count (s : State) (v j : Nat) :
    (s.partsRead.filter fun r => r.1 == v && r.2.1 == j).length =
      readsOf v j (s.lane .lane0).reads + readsOf v j (s.lane .lane1).reads + readsOf v j (s.lane .lane2).reads +
        readsOf v j (s.lane .lane3).reads := by
  rw [State.partsRead]
  simp only [List.flatMap_cons, List.flatMap_nil, List.append_nil, List.filter_append, List.length_append]
  rw [readsOf_filterMap, readsOf_filterMap, readsOf_filterMap, readsOf_filterMap, Nat.add_assoc, Nat.add_assoc]
  all_goals
    intro row
    rcases row with ⟨n, owner | hold⟩
    · cases owner with
      | stream w i p =>
        show (Option.filter _ (some (w, i, p))).isSome = (w == v && i == j)
        rw [Option.filter_some]
        cases w == v && i == j <;> rfl
      | priming h i d => rfl
    · rfl

/-- R88: the reads of a slot on a lane are among those that it counts, and are all of them where no other lane reads it. -/
theorem State.readsOf_le (s : State) (v j : Nat) (l : LaneId) :
    readsOf v j (s.lane l).reads ≤ (s.partsRead.filter fun r => r.1 == v && r.2.1 == j).length ∧
    (∀ m, m ≠ l → 0 < readsOf v j (s.lane m).reads →
      readsOf v j (s.lane l).reads < (s.partsRead.filter fun r => r.1 == v && r.2.1 == j).length) ∧
    ((∀ m, m ≠ l → readsOf v j (s.lane m).reads = 0) →
      readsOf v j (s.lane l).reads = (s.partsRead.filter fun r => r.1 == v && r.2.1 == j).length) := by
  rw [s.partsRead_count]
  refine ⟨?_, fun m other some_ => ?_, fun none_ => ?_⟩
  · cases l <;> omega
  · cases l <;> cases m <;> first | exact absurd rfl other | omega
  · have zero (m : LaneId) := none_ m
    cases l
    · have a := zero .lane1 nofun; have b := zero .lane2 nofun; have c := zero .lane3 nofun; omega
    · have a := zero .lane0 nofun; have b := zero .lane2 nofun; have c := zero .lane3 nofun; omega
    · have a := zero .lane0 nofun; have b := zero .lane1 nofun; have c := zero .lane3 nofun; omega
    · have a := zero .lane0 nofun; have b := zero .lane1 nofun; have c := zero .lane2 nofun; omega

theorem readsOf_pos {v j : Nat} {rows : List (Nat × ReadEntry)} :
    0 < readsOf v j rows ↔ ∃ row ∈ rows, ∃ p a u ms, row.2 = .busy (.stream v j p) a u ms := by
  rw [readsOf, List.length_pos_iff_exists_mem]
  refine exists_congr fun row => ?_
  rw [List.mem_filter, ReadEntry.reads_iff]

/-! ### The segments of the priming sample -/

/-- R12: the lane was reading segment `i` of its priming sample. -/
def LiveRead (rows : List (Nat × ReadEntry)) (list : List Nat) (i : Nat) : Prop :=
  ∃ h, list.head? = some h ∧ ∃ row ∈ rows, ∃ a m ms, row.2 = .busy (.priming h i false) a m ms

theorem liveRead_cons {row : Nat × ReadEntry} {rows : List (Nat × ReadEntry)} {list : List Nat} {i : Nat} :
    LiveRead (row :: rows) list i ↔ LiveRead [row] list i ∨ LiveRead rows list i := by
  constructor
  · rintro ⟨h, head, r, mem, is⟩
    rcases List.mem_cons.mp mem with rfl | mem
    · exact .inl ⟨h, head, r, .head _, is⟩
    · exact .inr ⟨h, head, r, mem, is⟩
  · rintro (⟨h, head, r, mem, is⟩ | ⟨h, head, r, mem, is⟩)
    · rw [List.mem_singleton.mp mem] at is
      exact ⟨h, head, row, .head _, is⟩
    · exact ⟨h, head, r, .tail _ mem, is⟩

theorem State.suspendSegment_lane (s : State) (l : LaneId) (h j : Nat) :
    (s.suspendSegment l h j).lane l = { s.lane l with segments :=
      match (s.outstandingSegment? l h j) with
      | some g => (s.lane l).segments.set j { g with state := .unread }
      | none => (s.lane l).segments } := by
  rw [State.suspendSegment]
  cases s.outstandingSegment? l h j with
  | none => rfl
  | some g => exact s.lane_setLane_same l _

theorem State.outstandingSegment?_eq_some {s : State} {l : LaneId} {h j : Nat} {g : Segment}
    (is : s.outstandingSegment? l h j = some g) : (s.lane l).primingList.head? = some h ∧
      (s.lane l).segments[j]? = some g ∧ g.state = .outstanding := by
  rw [State.outstandingSegment?] at is
  by_cases head : (s.lane l).primingList.head? = some h
  · rw [if_pos head] at is
    cases segment : (s.lane l).segments[j]? with
    | none => rw [segment] at is; cases is
    | some f =>
      rw [segment] at is
      dsimp only at is
      by_cases outstanding : f.state = .outstanding
      · rw [if_pos outstanding] at is
        cases is
        exact ⟨head, rfl, outstanding⟩
      · rw [if_neg outstanding] at is
        cases is
  · rw [if_neg head] at is
    cases is

/-- R12: the segment `g` is UNREAD again where it was OUTSTANDING under a LIVE read, and else as it was. -/
def Suspends (live : Prop) (g : Segment) (after : Option Segment) : Prop :=
  (live → g.state = .outstanding → after = some { g with state := .unread }) ∧
    (¬ live ∨ g.state ≠ .outstanding → after = some g)

theorem Suspends.dead {live : Prop} {g : Segment} {after : Option Segment} (no : ¬ live) (same : after = some g) :
    Suspends live g after := ⟨fun is _ => absurd is no, fun _ => same⟩

theorem Suspends.congr {live live' : Prop} {g : Segment} {after : Option Segment} (same : live ↔ live')
    (h : Suspends live g after) : Suspends live' g after := propext same ▸ h

/-- R12: the segment of one LIVE read. -/
theorem State.suspendSegment_suspends {s : State} {l : LaneId} {i : Nat} {g : Segment}
    (segment : (s.lane l).segments[i]? = some g) (h j : Nat) :
    Suspends ((s.lane l).primingList.head? = some h ∧ j = i) g ((s.suspendSegment l h j).lane l).segments[i]? := by
  rw [State.suspendSegment_lane]
  cases found : s.outstandingSegment? l h j with
  | none =>
    refine ⟨fun ⟨head, same⟩ outstanding => ?_, fun _ => segment⟩
    subst same
    have none_ : s.outstandingSegment? l h j = some g := by
      rw [State.outstandingSegment?, if_pos head, segment]
      exact if_pos outstanding
    rw [none_] at found
    cases found
  | some f =>
    obtain ⟨head, here, outstanding⟩ := State.outstandingSegment?_eq_some found
    by_cases same : j = i
    · subst same
      obtain rfl : f = g := Option.some.inj (here.symm.trans segment)
      obtain ⟨below, -⟩ := List.getElem?_eq_some_iff.mp segment
      exact ⟨fun _ _ => List.getElem?_set_self below,
        fun dead => absurd outstanding (dead.resolve_left fun no => no ⟨head, rfl⟩)⟩
    · exact .dead (fun both => same both.2) ((List.getElem?_set_ne same).trans segment)

/-- R12: one read of a lane that goes OFFLINE, as segment `i` of its priming sample sees it. -/
theorem State.resolveOffline_segment {s : State} {l : LaneId} {i : Nat} {g : Segment}
    (segment : (s.lane l).segments[i]? = some g) (row : Nat × ReadEntry) :
    Suspends (LiveRead [row] (s.lane l).primingList i) g ((s.resolveOffline l row).lane l).segments[i]? := by
  have other (same : ((s.resolveOffline l row).lane l).segments = (s.lane l).segments)
      (dead : ∀ h a m ms, row.2 ≠ .busy (.priming h i false) a m ms) :
      Suspends (LiveRead [row] (s.lane l).primingList i) g ((s.resolveOffline l row).lane l).segments[i]? := by
    refine .dead ?_ ((congrArg (·[i]?) same).trans segment)
    rintro ⟨h, -, r, mem, a, m, ms, is⟩
    rw [List.mem_singleton.mp mem] at is
    exact dead h a m ms is
  obtain ⟨n, r⟩ := row
  cases r with
  | stale hold => exact other rfl nofun
  | busy owner a m ms =>
    cases owner with
    | stream w j p =>
      refine other ?_ nofun
      rw [s.resolveOffline_stream l rfl]
      exact (s.failPart_lanesOnly w j p l false a m).segments (by decide) l
    | priming h j discard =>
      cases discard with
      | true => exact other rfl nofun
      | false =>
        refine (State.suspendSegment_suspends segment h j).congr (Iff.intro ?_ ?_)
        · rintro ⟨head, rfl⟩
          exact ⟨h, head, _, .head _, a, m, ms, rfl⟩
        · rintro ⟨k, head, row, mem, a', m', ms', is⟩
          rw [List.mem_singleton.mp mem] at is
          cases is
          exact ⟨head, rfl⟩

theorem State.resolveOffline_primingList (s : State) (l : LaneId) (row : Nat × ReadEntry) :
    ((s.resolveOffline l row).lane l).primingList = (s.lane l).primingList :=
  (s.resolveOffline_lanesOnly l row).primingList (by decide) l

theorem State.resolveOffline_length (s : State) (l : LaneId) (row : Nat × ReadEntry) :
    ((s.resolveOffline l row).lane l).segments.length = (s.lane l).segments.length := by
  unfold State.resolveOffline
  split
  · rw [(s.failPart_lanesOnly _ _ _ _ _ _ _).segments (by decide)]
  · split
    · rfl
    · rw [State.suspendSegment_lane]
      dsimp only
      split
      · exact List.length_set
      · rfl
  · rfl

/-- R12: the reads of a lane that goes OFFLINE, as segment `i` of its priming sample sees them. -/
theorem foldl_resolveOffline_segment {l : LaneId} {i : Nat} (rows : List (Nat × ReadEntry)) {s : State} {g : Segment}
    (segment : (s.lane l).segments[i]? = some g) :
    Suspends (LiveRead rows (s.lane l).primingList i) g
      ((rows.foldl (State.resolveOffline l) s).lane l).segments[i]? := by
  induction rows generalizing s g with
  | nil => exact .dead (fun ⟨_, _, _, mem, _⟩ => absurd mem List.not_mem_nil) segment
  | cons row rows ih =>
    obtain ⟨suspended, stays⟩ := State.resolveOffline_segment segment row
    have list := s.resolveOffline_primingList l row
    refine Suspends.congr liveRead_cons.symm ?_
    by_cases outstanding : g.state = .outstanding
    · by_cases live : LiveRead [row] (s.lane l).primingList i
      · have after := (ih (suspended live outstanding)).2 (.inr nofun)
        exact ⟨fun _ _ => after, fun dead => absurd outstanding (dead.resolve_left fun no => no (.inl live))⟩
      · have later := ih (stays (.inl live))
        rw [list] at later
        exact later.congr (or_iff_right live).symm
    · exact ⟨fun _ is => absurd is outstanding, fun _ => (ih (stays (.inr outstanding))).2 (.inr outstanding)⟩

theorem foldl_resolveOffline_length {l : LaneId} (rows : List (Nat × ReadEntry)) (s : State) :
    ((rows.foldl (State.resolveOffline l) s).lane l).segments.length = (s.lane l).segments.length := by
  induction rows generalizing s with
  | nil => rfl
  | cons row rows ih => exact (ih _).trans (s.resolveOffline_length l row)

/-! ### The lane lost -/

/-- R99, step 1: the lane itself is OFFLINE, and LANE_STATE raised. -/
def State.laneAway (s : State) (l : LaneId) : State :=
  (s.setLane l (s.lane l).offline).raise (.laneState l (s.lane l).state .offline)

/-- R99, step 2: its reads are resolved, and none of priming is outstanding. -/
def State.laneUnread (s : State) (l : LaneId) : State :=
  let resolved := (s.lane l).reads.foldl (State.resolveOffline l) (s.laneAway l)
  resolved.setLane l { resolved.lane l with primingOutstanding := 0 }

/-- R99, step 3: the slots of its queue are lost. -/
def State.laneUnqueued (s : State) (l : LaneId) : State :=
  ((s.laneUnread l).lane l).queue.foldl (fun r n => r.loseQueued l n) (s.laneUnread l)

/-- R99: the lane's queue is empty. -/
def State.laneLost (s : State) (l : LaneId) : State :=
  (s.laneUnqueued l).setLane l { (s.laneUnqueued l).lane l with queue := [] }

theorem exec_presenceLost {s : State} {l : LaneId} (present : (s.lane l).present = true) :
    exec (.presenceLost l) s = .next (s.laneLost l).dispatch := by
  show execPresenceLost l s = _
  rw [execPresenceLost]
  exact if_pos present

theorem State.laneAway_lane (s : State) (l m : LaneId) :
    (s.laneAway l).lane m = if m = l then (s.lane l).offline else s.lane m := s.lane_setLane l m _

theorem State.laneAway_offline (s : State) (l : LaneId) : ((s.laneAway l).lane l).state = .offline := by
  rw [s.laneAway_lane, if_pos rfl]
  rfl

/-- The reads of the lane, resolved. -/
theorem State.laneAway_resolves (s : State) (l : LaneId) :
    (s.laneAway l).Resolves ((s.lane l).reads.foldl (State.resolveOffline l) (s.laneAway l)) l :=
  (resolveOffline_loses (v := 0) (j := 0) (by decide) l).foldl_resolves _ (s.laneAway_offline l)

theorem State.laneUnread_lane (s : State) (l m : LaneId) : (s.laneUnread l).lane m =
    if m = l then
      { ((s.lane l).reads.foldl (State.resolveOffline l) (s.laneAway l)).lane l with primingOutstanding := 0 }
    else ((s.lane l).reads.foldl (State.resolveOffline l) (s.laneAway l)).lane m :=
  State.lane_setLane _ l m _

theorem State.laneUnread_offline (s : State) (l : LaneId) : ((s.laneUnread l).lane l).state = .offline := by
  rw [s.laneUnread_lane, if_pos rfl]
  exact (s.laneAway_resolves l).offline (s.laneAway_offline l)

theorem State.laneUnread_queue (s : State) (l m : LaneId) : ((s.laneUnread l).lane m).queue =
    (((s.lane l).reads.foldl (State.resolveOffline l) (s.laneAway l)).lane m).queue := by
  rw [s.laneUnread_lane]
  split
  case isTrue is => rw [is]
  case isFalse => rfl

/-- No part has joined the queue of the lane. -/
theorem State.laneUnread_queued {s : State} {l : LaneId} {n : QueueEntry} (mem : n ∈ ((s.laneUnread l).lane l).queue) :
    n ∈ (s.lane l).queue := by
  rw [s.laneUnread_queue] at mem
  have before := (s.laneAway_resolves l).queue n mem
  rwa [s.laneAway_lane, if_pos rfl] at before

theorem State.laneUnqueued_resolves (s : State) (l : LaneId) : (s.laneUnread l).Resolves (s.laneUnqueued l) l :=
  (loseQueued_loses (v := 0) (j := 0) (by decide) l).foldl_resolves _ (s.laneUnread_offline l)

theorem State.laneUnqueued_segments (s : State) (l m : LaneId) :
    ((s.laneUnqueued l).lane m).segments = ((s.laneUnread l).lane m).segments :=
  (State.foldl_lanesOnly (fun (t : State) n => t.loseQueued_lanesOnly l n) _ _).segments (by decide) m

theorem State.laneLost_lane (s : State) (l m : LaneId) : (s.laneLost l).lane m =
    if m = l then { (s.laneUnqueued l).lane l with queue := [] } else (s.laneUnqueued l).lane m :=
  State.lane_setLane _ l m _

/-- A lane that differs in its queue and its segments alone. -/
theorem State.LanesOnly.lane_eq {s t : State} (h : s.LanesOnly t [.queue, .segments]) (m : LaneId) :
    t.lane m = { s.lane m with queue := (t.lane m).queue, segments := (t.lane m).segments } := by
  have state := h.state (by decide) m
  have present := h.present (by decide) m
  have reads := h.reads (by decide) m
  have errors := h.errors (by decide) m
  have window := h.window (by decide) m
  have list := h.primingList (by decide) m
  have outstanding := h.primingOutstanding (by decide) m
  generalize t.lane m = x at *
  dsimp only
  rw [← state, ← present, ← reads, ← errors, ← window, ← list, ← outstanding]

theorem State.laneLost_same (s : State) (l : LaneId) : (s.laneLost l).lane l =
    { s.lane l with state := .offline, present := false, reads := [], queue := [], errors := 0, window := none,
                    primingOutstanding := 0, segments := ((s.laneLost l).lane l).segments } := by
  have unqueued := (s.laneUnqueued_resolves l).lanes.lane_eq l
  have unread := s.laneUnread_lane l l
  rw [if_pos rfl, (s.laneAway_resolves l).lanes.lane_eq l, s.laneAway_lane, if_pos rfl] at unread
  rw [s.laneLost_lane, if_pos rfl]
  generalize (s.laneUnqueued l).lane l = x at *
  rw [unread] at unqueued
  rw [unqueued]
  rfl

theorem State.laneLost_other (s : State) {l m : LaneId} (other : m ≠ l) :
    (s.laneLost l).lane m = { s.lane m with queue := ((s.laneLost l).lane m).queue } := by
  have away := s.laneAway_lane l m
  rw [if_neg other] at away
  have resolved := (s.laneAway_resolves l).lanes.lane_eq m
  rw [(s.laneAway_resolves l).others m other, away] at resolved
  have unread := s.laneUnread_lane l m
  rw [if_neg other, resolved] at unread
  have unqueued := (s.laneUnqueued_resolves l).lanes.lane_eq m
  rw [(s.laneUnqueued_resolves l).others m other, unread] at unqueued
  rw [s.laneLost_lane, if_neg other]
  generalize (s.laneUnqueued l).lane m = x at *
  rw [unqueued]

theorem State.laneLost_segments (s : State) (l : LaneId) : ((s.laneLost l).lane l).segments =
    (((s.lane l).reads.foldl (State.resolveOffline l) (s.laneAway l)).lane l).segments := by
  rw [s.laneLost_lane, if_pos rfl]
  exact (s.laneUnqueued_segments l l).trans (by rw [s.laneUnread_lane, if_pos rfl])

theorem State.laneLost_only (s : State) (l : LaneId) : s.ChangesOnly (s.laneLost l) fetchParts := by
  have away : s.ChangesOnly (s.laneAway l) fetchParts :=
    ((s.setLanes_changes _).wider (by decide)).trans ((State.setReport_changes _ _).wider (by decide))
  have unread : ((s.lane l).reads.foldl (State.resolveOffline l) (s.laneAway l)).ChangesOnly (s.laneUnread l) fetchParts :=
    (State.setLanes_changes _ _).wider (by decide)
  exact away.trans ((s.laneAway_resolves l).only.trans (unread.trans ((s.laneUnqueued_resolves l).only.trans
    ((State.setLanes_changes _ _).wider (by decide)))))

/-- R99: LANE_STATE, and FETCH_LOST, are raised alone. -/
theorem State.laneLost_event (s : State) (l : LaneId) {k : EventKind} (other : k ≠ .fetchLost) :
    (s.laneLost l).report.event k = (s.laneAway l).report.event k :=
  ((s.laneUnqueued_resolves l).event k other).trans ((s.laneAway_resolves l).event k other)

/-! ### A slot of a sound state -/

theorem State.mem_partsRead {s : State} {m : LaneId} {row : Nat × ReadEntry} (mem : row ∈ (s.lane m).reads)
    {v j p a u ms : Nat} (is : row.2 = .busy (.stream v j p) a u ms) : (v, j, p) ∈ s.partsRead := by
  have each : m ∈ [LaneId.lane0, .lane1, .lane2, .lane3] := by cases m <;> decide
  refine List.mem_flatMap.mpr ⟨m, each, List.mem_filterMap.mpr ⟨row, mem, ?_⟩⟩
  rw [is]

theorem State.mem_partsQueued {s : State} {m : LaneId} {n : QueueEntry} (mem : n ∈ (s.lane m).queue) :
    (n.voice, n.slot, n.part) ∈ s.partsQueued := by
  have each : m ∈ [LaneId.lane0, .lane1, .lane2, .lane3] := by cases m <;> decide
  exact List.mem_flatMap.mpr ⟨m, each, List.mem_map.mpr ⟨n, mem, rfl⟩⟩

section slots

variable {s : State} {l : LaneId} (sound : s.FetchSound) {v j : Nat} (hj : j < 8) {slot : Slot}
  (held : s.slot? v j = some slot)
include sound

theorem State.FetchSound.reads_inRing : ∀ row ∈ (s.lane l).reads, row.2.InRing := by
  obtain ⟨-, -, -, -, -, read, -⟩ := sound
  exact fun row mem w i p a u ms is => (read w i p (State.mem_partsRead mem is)).1

theorem State.FetchSound.queue_inRing : ∀ n ∈ ((s.laneUnread l).lane l).queue, n.slot < 8 := by
  obtain ⟨-, -, -, -, queued, -, -⟩ := sound
  exact fun n mem => ((queued _ _ _).mp (State.mem_partsQueued (State.laneUnread_queued mem))).1

include hj

theorem State.FetchSound.lost_stays {chunk : Nat}
    (lost : ((s.lane l).reads.foldl (State.resolveOffline l) (s.laneAway l)).LostAs v j chunk) :
    (s.laneLost l).LostAs v j chunk :=
  (loseQueued_loses hj l).foldl_lost (s := s.laneUnread l) sound.queue_inRing lost

/-- Where no read of the lane is of the slot, the reads leave it. -/
theorem State.FetchSound.unread_kept (unread : readsOf v j (s.lane l).reads = 0) :
    s.SlotKept (s.laneUnread l) v j := by
  have away : s.SlotKept (s.laneAway l) v j := by
    refine ⟨rfl, fun m => ?_⟩
    rw [s.laneAway_lane]
    split
    case isTrue is => rw [is]; rfl
    case isFalse => rfl
  have resolved := (resolveOffline_loses hj l).foldl_kept (v := v) sound.reads_inRing (readsOf_eq_zero unread) (s.laneAway l)
  refine away.trans (resolved.trans ⟨rfl, fun m => ?_⟩)
  rw [s.laneUnread_queue]

/-- Where no part of the slot waits for the lane, losing the queue leaves it. -/
theorem State.FetchSound.queue_kept (unqueued : ∀ n ∈ (s.lane l).queue, ¬(n.voice = v ∧ n.slot = j)) :
    (s.laneUnread l).SlotKept (s.laneUnqueued l) v j :=
  (loseQueued_loses hj l).foldl_kept sound.queue_inRing (fun n mem => unqueued n (State.laneUnread_queued mem)) _

include held

/-- R79: a slot with a part waiting or being read on the lane is LOST. -/
theorem State.FetchSound.here_lost (state : slot.state = .queued ∨ slot.state = .inFlight)
    (here : (∃ n ∈ (s.lane l).queue, n.voice = v ∧ n.slot = j) ∨ 0 < readsOf v j (s.lane l).reads) :
    (s.laneLost l).LostAs v j slot.chunk ∧
      ((s.voice? v).isSome = true → ((s.laneLost l).report.event .fetchLost).raw = true) := by
  have queues := loseQueued_loses (v := v) hj l
  have unread := s.laneAway_resolves l
  by_cases reads : 0 < readsOf v j (s.lane l).reads
  · have flies : slot.state = .inFlight := by
      obtain ⟨-, -, -, -, -, -, counts⟩ := sound
      refine state.resolve_left fun queued => ?_
      obtain ⟨count, idle, -⟩ := counts v j slot hj held
      have le := (s.readsOf_le v j l).1
      rw [← count, idle (.inl queued)] at le
      omega
    obtain ⟨row, mem, p, a, u, ms, is⟩ := readsOf_pos.mp reads
    have slot' : (s.laneAway l).slot? v j = some slot := held
    obtain ⟨lost, raw⟩ := (resolveOffline_loses hj l).foldl_live sound.reads_inRing (s.laneAway_offline l) slot' flies
      ⟨row, mem, ReadEntry.reads_iff.mpr ⟨p, a, u, ms, is⟩⟩
    exact ⟨sound.lost_stays hj lost, fun voice => (s.laneUnqueued_resolves l).raw (raw voice)⟩
  · obtain ⟨n, mem, own⟩ := here.resolve_right reads
    have kept := sound.unread_kept hj (l := l) (Nat.eq_zero_of_not_pos reads)
    have waits : n ∈ ((s.laneUnread l).lane l).queue := by
      have entry : n ∈ entriesOf v j (s.lane l).queue := mem_entriesOf.mpr ⟨mem, own⟩
      rw [← kept.entries l] at entry
      exact (mem_entriesOf.mp entry).1
    obtain ⟨lost, raw⟩ := queues.foldl_live sound.queue_inRing (s.laneUnread_offline l) (kept.slot.trans held) state
      ⟨n, waits, own⟩
    refine ⟨lost, fun voice => raw ?_⟩
    have same : (s.laneUnread l).voices = s.voices :=
      (unread.only.voices (by decide)).trans rfl
    rwa [State.voice?, same]

/-- R79: a slot that waits or is read on other lanes only is left. -/
theorem State.FetchSound.elsewhere_kept (unqueued : ∀ n ∈ (s.lane l).queue, ¬(n.voice = v ∧ n.slot = j))
    (unread : readsOf v j (s.lane l).reads = 0) : (s.laneLost l).slot? v j = some slot ∧
      ∀ m, m ≠ l → entriesOf v j ((s.laneLost l).lane m).queue = entriesOf v j (s.lane m).queue := by
  have kept := (sound.unread_kept hj (l := l) unread).trans (sound.queue_kept hj unqueued)
  refine ⟨kept.slot.trans held, fun m other => ?_⟩
  rw [s.laneLost_lane, if_neg other]
  exact kept.entries m

/-- R63: no part of a FULL, LOST or DRAINING slot waits. -/
theorem State.FetchSound.none_waits (state : slot.state = .full ∨ slot.state = .lost ∨ slot.state = .draining) :
    ∀ n ∈ (s.lane l).queue, ¬(n.voice = v ∧ n.slot = j) := by
  obtain ⟨-, -, -, -, queued, -, counts⟩ := sound
  rintro n mem ⟨rfl, rfl⟩
  obtain ⟨-, x, is, waits⟩ := (queued _ _ _).mp (State.mem_partsQueued mem)
  rw [held] at is
  cases is
  exact (counts _ _ slot hj held).2.2 state (List.mem_of_getElem? waits)

theorem State.FetchSound.full_kept (state : slot.state = .full) : (s.laneLost l).slot? v j = some slot := by
  have waits := sound.none_waits hj held (l := l) (.inl state)
  obtain ⟨-, -, -, -, -, -, counts⟩ := id sound
  obtain ⟨count, idle, -⟩ := counts v j slot hj held
  have le := (s.readsOf_le v j l).1
  rw [← count, idle (.inr state)] at le
  exact (sound.elsewhere_kept hj held waits (Nat.le_zero.mp le)).1

theorem State.FetchSound.lost_kept (state : slot.state = .lost) : (s.laneLost l).LostAs v j slot.chunk := by
  obtain ⟨-, -, -, -, -, -, counts⟩ := id sound
  obtain ⟨-, -, waits⟩ := counts v j slot hj held
  refine sound.lost_stays hj ((resolveOffline_loses hj l).foldl_lost sound.reads_inRing ?_)
  exact ⟨slot, held, state, rfl, waits (.inr (.inl state))⟩

/-- R82: a DRAINING slot that is read elsewhere too. -/
theorem State.FetchSound.draining_kept (state : slot.state = .draining) {m : LaneId} (other : m ≠ l)
    (reads : 0 < readsOf v j (s.lane m).reads) : ∃ x, (s.laneLost l).slot? v j = some x ∧ x.state = .draining ∧
      x.chunk = slot.chunk ∧ x.successor = slot.successor := by
  obtain ⟨-, -, -, -, -, -, counts⟩ := id sound
  have more := (s.readsOf_le v j l).2.1 m other reads
  rw [← (counts v j slot hj held).1] at more
  have slot' : (s.laneAway l).slot? v j = some slot := held
  obtain ⟨y, is, rest⟩ := foldl_resolveOffline_draining hj (l := l) sound.reads_inRing slot' state more
  have kept := sound.queue_kept hj (sound.none_waits hj held (l := l) (.inr (.inr state)))
  exact ⟨y, kept.slot.trans is, rest⟩

/-- R82: a DRAINING slot whose reads were all on the lane resolves as its last read would have. -/
theorem State.FetchSound.drained (state : slot.state = .draining) (reads : 0 < slot.outstanding)
    (none_ : ∀ m, m ≠ l → readsOf v j (s.lane m).reads = 0) : ∃ (r : State) (y : Slot) (p : Nat),
      (s.laneAway l).Resolves r l ∧ y.successor = slot.successor ∧ y.outstanding ≤ 1 ∧
      (r.drainRead v j p y).SlotKept (s.laneUnqueued l) v j ∧
      (((r.drainRead v j p y).report.event .fetchLost).raw = true →
        ((s.laneLost l).report.event .fetchLost).raw = true) := by
  obtain ⟨-, -, -, -, -, -, counts⟩ := id sound
  have all := (s.readsOf_le v j l).2.2 none_
  rw [← (counts v j slot hj held).1] at all
  have slot' : (s.laneAway l).slot? v j = some slot := held
  obtain ⟨r, y, p, before, successor, one, after, kept⟩ :=
    foldl_resolveOffline_drained hj sound.reads_inRing (s.laneAway_offline l) slot' state reads all
  have unread : ((s.lane l).reads.foldl (State.resolveOffline l) (s.laneAway l)).SlotKept (s.laneUnread l) v j :=
    ⟨rfl, fun m => by rw [s.laneUnread_queue]⟩
  have unqueued := sound.queue_kept hj (sound.none_waits hj held (l := l) (.inr (.inr state)))
  exact ⟨r, y, p, before, successor, one, kept.trans (unread.trans unqueued),
    fun raw => (s.laneUnqueued_resolves l).raw (after.raw raw)⟩

end slots

/-- R82, R99: the successor of a DRAINING slot whose reads were all on the lane. -/
theorem State.FetchSound.successor_taken {s : State} (sound : s.FetchSound) {l : LaneId} {v j : Nat} (hj : j < 8)
    {slot : Slot} (held : s.slot? v j = some slot) (state : slot.state = .draining) (reads : 0 < slot.outstanding)
    (none_ : ∀ m, m ≠ l → readsOf v j (s.lane m).reads = 0) {k : Nat} {x : Voice} {e : SampleEntry}
    (successor : slot.successor = some k) (voice : s.voice? v = some x) (entry : s.entry? x.handle = some e) :
    ∃ r : State, (s.laneAway l).Resolves r l ∧ (chunkTaken r v j x e k).SlotKept (s.laneUnqueued l) v j ∧
      (((chunkTaken r v j x e k).report.event .fetchLost).raw = true →
        ((s.laneLost l).report.event .fetchLost).raw = true) := by
  obtain ⟨r, y, p, before, same, one, kept, raw⟩ := sound.drained hj held state reads none_
  have taken : r.drainRead v j p y = chunkTaken r v j x e k := by
    refine State.drainRead_successor one (same.trans successor) ?_ ?_
    · rw [State.voice?, before.only.voices (by decide)]
      exact voice
    · rw [State.entry?_congr (congrArg Library.samples (before.only.library (by decide)))]
      exact entry
  rw [taken] at kept raw
  exact ⟨r, before, kept, raw⟩

/-- The lane that the sample of a successor is on, once the lane `l` is OFFLINE. -/
theorem State.laneAway_state (s : State) (l m : LaneId) :
    ((s.laneAway l).lane m).state = .offline ↔ m = l ∨ (s.lane m).state = .offline := by
  rw [s.laneAway_lane]
  by_cases is : m = l
  · rw [if_pos is]
    exact iff_of_true rfl (.inl is)
  · rw [if_neg is]
    exact (or_iff_right is).symm

/-- Settles O50: the lane itself, its segments, its slots by their states, and the lane that returns. -/
theorem presence : Obligations.Presence := by
  intro s l
  refine ⟨fun absent => ?_, fun present => ?_, fun present => ?_, fun absent offline => ?_⟩
  · show execPresenceLost l s = _
    rw [execPresenceLost]
    exact if_neg (Bool.eq_false_iff.mp absent)
  · have only := s.laneLost_only l
    refine ⟨s.laneLost l, exec_presenceLost present, s.laneLost_same l, fun i g segment => ?_, ?_,
      fun m other => s.laneLost_other other, ?_, fun sound v j slot hj held => ?_, only.voices (by decide),
      only.library (by decide), only.nextOrder (by decide), only.port (by decide), only.cadence (by decide),
      only.pass (by decide), only.config (by decide), only.headStore (by decide), only.ringStore (by decide),
      only.freeCount (by decide)⟩
    · have away : ((s.laneAway l).lane l).segments = (s.lane l).segments ∧
          ((s.laneAway l).lane l).primingList = (s.lane l).primingList := by
        rw [s.laneAway_lane, if_pos rfl]
        exact ⟨rfl, rfl⟩
      have suspended := foldl_resolveOffline_segment (s.lane l).reads (s := s.laneAway l) (away.1 ▸ segment)
      rw [away.2, ← s.laneLost_segments] at suspended
      exact suspended
    · rw [s.laneLost_segments, foldl_resolveOffline_length, s.laneAway_lane, if_pos rfl]
      rfl
    · rw [s.laneLost_event l (by decide)]
      exact s.report.raise_event_same (.laneState l (s.lane l).state .offline)
    · intro readOn here entries
      have reads (m : LaneId) : readOn m ↔ 0 < readsOf v j (s.lane m).reads := readsOf_pos.symm
      have none_ {m : LaneId} (no : ¬ readOn m) : readsOf v j (s.lane m).reads = 0 :=
        Nat.eq_zero_of_not_pos (mt (reads m).mpr no)
      refine ⟨fun is state => ?_, fun no => ?_, sound.full_kept hj held, fun state => ?_, fun state elsewhere => ?_,
        fun state some_ nowhere => ⟨fun none' => ?_, fun k x e successor voice entry => ?_⟩⟩
      · exact sound.here_lost hj held state (is.imp_right (reads l).mp)
      · exact sound.elsewhere_kept hj held (fun n mem own => no (.inl ⟨n, mem, own⟩)) (none_ fun is => no (.inr is))
      · obtain ⟨x, is, lost, chunk, -⟩ := sound.lost_kept hj held (l := l) state
        exact ⟨x, is, lost, chunk⟩
      · obtain ⟨m, other, is⟩ := elsewhere
        exact sound.draining_kept hj held state other ((reads m).mp is)
      · obtain ⟨r, y, p, -, same, one, kept, -⟩ := sound.drained hj held state some_ fun m other => none_ (nowhere m other)
        rw [State.drainRead_empty one (same.trans none')] at kept
        exact kept.slot.trans ((r.slot?_clearSlot v j v j).trans (if_pos rfl))
      · obtain ⟨r, before, kept, raw⟩ := sound.successor_taken hj held state some_
          (fun m other => none_ (nowhere m other)) successor voice entry
        have config : r.config = s.config := before.only.config (by decide)
        have lane : (r.lane e.lane).state = .offline ↔ e.lane = l ∨ (s.lane e.lane).state = .offline := by
          rw [before.lanes.state (by decide), s.laneAway_state]
        intro taken
        refine ⟨fun away => ?_, fun other online => ?_⟩
        · have offline := lane.mpr away
          rw [chunkTaken_offline offline, config] at kept raw
          exact ⟨kept.slot.trans ((r.slot?_putSlot v j _ v j).trans (if_pos rfl)), raw (r.report.raise_raw rfl)⟩
        · have online' : (r.lane e.lane).state ≠ .offline := fun is => (lane.mp is).elim other online
          have inQueue := kept.entries e.lane
          rw [chunkTaken_lane, if_pos ⟨online', rfl⟩, config] at inQueue
          rw [chunkTaken_online online', config] at kept
          refine ⟨kept.slot.trans ((r.slot?_putSlot v j _ v j).trans (if_pos rfl)), fun p below => ?_⟩
          rw [s.laneLost_lane, if_neg other]
          have parts : p < (chunkParts x e k).length := by
            rw [show taken.marks.length = _ from List.length_map ..] at below
            exact below
          let n : QueueEntry := ⟨v, j, p, taken.deadline, partAddress e (chunkParts x e k)[p],
            partUnitCount e (chunkParts x e k)[p]⟩
          have joins : n ∈ chunkEntries s.config.period v j x e k :=
            List.mem_map.mpr ⟨((chunkParts x e k)[p], p), List.mem_zipIdx_iff_getElem?.mpr (List.getElem?_eq_getElem parts), rfl⟩
          have waits : n ∈ entriesOf v j ((s.laneUnqueued l).lane e.lane).queue := by
            rw [inQueue]
            exact mem_entriesOf.mpr ⟨mem_foldl_queueInsert.mpr (.inl joins), rfl, rfl⟩
          exact ⟨n, (mem_entriesOf.mp waits).1, rfl, rfl, rfl, rfl⟩
  · show execPresenceReturned l s = _
    rw [execPresenceReturned]
    exact if_pos present
  · show execPresenceReturned l s = _
    rw [execPresenceReturned, ← offline]
    exact if_neg (Bool.eq_false_iff.mp absent)

end Sys2Proof.Machine
end
